-- ==== Sys2Proof/Word.lean ====
section
/-! DEFINITION. The widths of the Tedvar 262: bytes, 16-bit words, and the two lines. -/

namespace Sys2Proof

/-- A byte of the host bus, of a record or of a line character. -/
abbrev Byte := BitVec 8

/-- A 16-bit quantity: times, cycle numbers, counts, window addresses. -/
abbrev Half := BitVec 16

/-- The two lines of the part (00_scope.md, Names and notation). -/
inductive Line where
  | a
  | b
deriving DecidableEq, Repr

/-- A pair of like things, one for each line. -/
structure Two (α : Type) where
  a : α
  b : α
deriving DecidableEq, Repr

end Sys2Proof
end

