-- ==== Sys2Proof/Config.lean ====
section
/-! DEFINITION. What the spec fixes for every part (identity, sizes, bounds) and what it leaves open. The open choices are
constants without a body: nothing can be proved of their values, so a claim holds whatever they are. -/

namespace Sys2Proof.Config

/-- ID register (R155). -/
def identity : Byte := 0xB6

/-- REVISION register (R155). -/
def revision : Byte := 0x01

/-- Entries and reservations the event queue has room for (R143). -/
def queueRoom : Nat := 32

/-- Requests an acyclic queue holds at most (R130). -/
def acyclicRoom : Nat := 4

/-- Reference clock periods within which the check of a changeover ends (R41). -/
def checkBound : Nat := 160

/-- Reference clock periods within which a copy of the active bank ends (R47). -/
def copyBound : Nat := 1100

/-- Bytes that COPY_ACTIVE copies (R47). -/
def copyBytes : Nat := 1026

/-- OPEN (R136, R143): which of several appends that come together from different blocks is taken first, or which of two
blocks acts first where the spec gives no order. The argument counts the choices drawn so far. log 5 -/
opaque freeOrder : Nat → Nat

/-- OPEN (R33, R47): how many further bytes a running copy has copied when it is next looked at. log 6 -/
opaque freeCopied : Nat → Nat

/-- OPEN (R47): whether a running copy ends in a given reference clock period, below its bound. log 6 -/
opaque freeCopyEnds : Nat → Bool

/-- OPEN (R41): how many counts and entries the check examines in a given reference clock period. log 7 -/
opaque freeCheckMoves : Nat → Nat

end Sys2Proof.Config
end

