-- ==== Sys2Proof/Syntax.lean ====
section
/-! DEFINITION. The commands the part takes: one constructor for each row of spec/opcode_table.json, in the table's order.
The host's commands carry no operand: their arguments are CMD_ARG0 and CMD_ARG1 as they stand (R162). -/

namespace Sys2Proof

/-- The line settings that LINE_SETTING_WRITE names: the bytes at offsets +0x2 to +0x7 of a line block (section 11.1). -/
inductive LineSetting where
  | frameGap
  | charGap
  | failThreshold
  | probeInterval
  | lineFlags
  | eventMask
deriving DecidableEq, Repr

/-- The commands and events of the part. -/
inductive Instr where
  /-- CYCLE_START (R18) -/
  | cycleStart
  /-- CYCLE_STOP (R19) -/
  | cycleStop
  /-- CYCLE_SINGLE (R20) -/
  | cycleSingle
  /-- CHANGEOVER (R40) -/
  | changeover
  /-- ABORT_CHANGEOVER (R46) -/
  | abortChangeover
  /-- COPY_ACTIVE (R47) -/
  | copyActive
  /-- LINE_ENABLE (R57) -/
  | lineEnable
  /-- LINE_DISABLE (R80) -/
  | lineDisable
  /-- PARK (R96) -/
  | park
  /-- UNPARK (R97) -/
  | unpark
  /-- CLEAR_COUNTERS (R98) -/
  | clearCounters
  /-- PUBLISH_IMAGE (R122) -/
  | publishImage
  /-- MARK_IMAGE (R125) -/
  | markImage
  /-- UNMARK_ALL (R125) -/
  | unmarkAll
  /-- CLAIM (R112) -/
  | claim
  /-- RELEASE (R113) -/
  | release
  /-- FLUSH (R114) -/
  | flush
  /-- POST (R129) -/
  | post
  /-- CANCEL (R138) -/
  | cancel
  /-- POP (R148) -/
  | pop
  /-- SOFT_RESET (R166) -/
  | softReset
  /-- BAD_COMMAND (R162) -/
  | badCommand (code : Byte)
  /-- CYT_MODE_WRITE (R15) -/
  | cytModeWrite (v : Byte)
  /-- CYT_PRESCALE_WRITE (R15) -/
  | cytPrescaleWrite (v : Byte)
  /-- CYT_WINDOW_WRITE (R15) -/
  | cytWindowWrite (v : Byte)
  /-- CYT_PERIOD_LOW_WRITE (R16) -/
  | cytPeriodLowWrite (v : Byte)
  /-- CYT_PERIOD_HIGH_WRITE (R16) -/
  | cytPeriodHighWrite (v : Byte)
  /-- DIVISOR_LOW_WRITE (R55) -/
  | divisorLowWrite (l : Line) (v : Byte)
  /-- DIVISOR_HIGH_WRITE (R55) -/
  | divisorHighWrite (l : Line) (v : Byte)
  /-- LINE_SETTING_WRITE (R55) -/
  | lineSettingWrite (l : Line) (which : LineSetting) (v : Byte)
  /-- CYT_VALUE_LOW_READ (R29) -/
  | cytValueLowRead
  /-- CYCLE_COUNT_LOW_READ (R29) -/
  | cycleCountLowRead
  /-- SCH_CHANGEOVERS_LOW_READ (R45) -/
  | schChangeoversLowRead
  /-- OVERRUN_COUNTER_WRITE (R56) -/
  | overrunCounterWrite (l : Line) (v : Byte)
  /-- STRAY_COUNTER_WRITE (R56) -/
  | strayCounterWrite (l : Line) (v : Byte)
  /-- POOL_MISSES_WRITE (R106) -/
  | poolMissesWrite (v : Byte)
  /-- HOST_STATUS_WRITE (R161) -/
  | hostStatusWrite (v : Byte)
  /-- IRQ_STATUS_WRITE (R151) -/
  | irqStatusWrite (v : Byte)
  /-- IRQ_ENABLE_WRITE (R152) -/
  | irqEnableWrite (v : Byte)
  /-- WIN_DATA_READ (R157) -/
  | winDataRead
  /-- WIN_DATA_WRITE (R157) -/
  | winDataWrite (v : Byte)
  /-- WIN_PEEK_READ (R157) -/
  | winPeekRead
  /-- WIN_PEEK_WRITE (R157) -/
  | winPeekWrite (v : Byte)
  /-- REGISTER_WRITE (R155) -/
  | registerWrite (offset : BitVec 6) (v : Byte)
  /-- PIN_RESET (R165) -/
  | pinReset
  /-- RESET_RELEASE (R165) -/
  | resetRelease
  /-- POWER_UP (R165) -/
  | powerUp
  /-- TICK (R14) -/
  | tick
  /-- PERIOD_END (R21) -/
  | periodEnd
  /-- SYNC_WINDOW_EXPIRY (R27) -/
  | syncWindowExpiry
  /-- SYNC_FALLING_EDGE (R26) -/
  | syncFallingEdge
  /-- CHANGEOVER_CHECK_END (R41) -/
  | changeoverCheckEnd
  /-- COPY_COMPLETE (R47) -/
  | copyComplete
  /-- SLOT_BEGIN (R61) -/
  | slotBegin (l : Line)
  /-- CHARACTER_TRANSMITTED (R13) -/
  | characterTransmitted (l : Line)
  /-- RECEIVED_CHARACTER (R3) -/
  | receivedCharacter (l : Line) (byte : Byte) (head framing : Bool)
  /-- FALSE_START (R3) -/
  | falseStart (l : Line)
  /-- REPLY_WINDOW_EXPIRY (R8) -/
  | replyWindowExpiry (l : Line)
  /-- CHARACTER_GAP_EXPIRY (R9) -/
  | characterGapExpiry (l : Line)
  /-- QUIET_IDLE_EXPIRY (R11) -/
  | quietIdleExpiry (l : Line)
  /-- QUIET_LIMIT_EXPIRY (R11) -/
  | quietLimitExpiry (l : Line)
  /-- FRAME_GAP_END (R72) -/
  | frameGapEnd (l : Line)
  /-- OPEN_SLOT_END (R63) -/
  | openSlotEnd (l : Line)
  /-- ACYCLIC_START (R133) -/
  | acyclicStart (l : Line)
  /-- START_EDGE (R3) -/
  | startEdge (l : Line)
  /-- RX_RETURNED_TO_1 (R3) -/
  | rxReturnedTo1 (l : Line)
  /-- SYNC_SEEN_HIGH (R17) -/
  | syncSeenHigh
deriving DecidableEq, Repr

end Sys2Proof
end

