-- ==== Sys2Proof/Machine/State.lean ====
section
/-! DEFINITION. The state of the Tedvar 262: every block's state as its chapter gives it, the pins, and the queue of waiting
commands. INVENTORY.md lists each field with its rule and reset value. -/

namespace Sys2Proof.Machine

/-! ## Cycle Timer (chapter 2) -/

inductive TimerMode where
  | free
  | follow
deriving DecidableEq, Repr

inductive TimerState where
  | stopped
  | running
  | stopping
  | single
deriving DecidableEq, Repr

inductive SyncState where
  | notUsed
  | seeking
  | locked
  | holdover
deriving DecidableEq, Repr

/-- The Cycle Timer (chapter 2, introduction, and R29 for the latches). -/
structure Timer where
  mode : TimerMode
  syncOutEnable : Bool
  prescaler : Byte
  period : Half
  window : Byte
  /-- holding byte of CYT_PERIOD (R16) -/
  periodHold : Byte
  state : TimerState
  sync : SyncState
  value : Half
  /-- reference clock periods into the current tick (R14) -/
  subTick : Nat
  cycleCount : Half
  cycleFlag : Bool
  early : Byte
  /-- the one-tick low pulse on SYNC is under way (R17) -/
  pulse : Bool
  /-- the previous sample of SYNC as an input, none before the first (R17) -/
  prevSync : Option Bool
  valueLatch : Byte
  countLatch : Byte
deriving DecidableEq, Repr

/-! ## Schedule Store (chapter 3) -/

/-- An entry record (section 11.3): any bytes, judged by the check of R41. -/
structure Entry where
  offset : Half
  station : Byte
  kind : Byte
  requestLength : Byte
  replyLength : Byte
  image : Byte
  mailbox : Byte
  reservation : Half
  replyWindow : Half
  retryLimit : Byte
  divider : Byte
  phase : Byte
  label : Byte
deriving DecidableEq, Repr

/-- One line's list in a bank: 32 entry records and a count (R34). -/
structure SlotList where
  entries : Vector Entry 32
  count : Byte
deriving DecidableEq, Repr

/-- A schedule bank: a slot list for each line (R32). -/
abbrev Bank := Two SlotList

inductive ChangeoverState where
  | none
  | checking
  | armed
deriving DecidableEq, Repr

/-- Where a check stands: the line, and how many of its items (the count, then its entries) have been examined (R41). -/
structure CheckPos where
  line : Line
  done : Nat
deriving DecidableEq, Repr

/-- Outcomes of attempts, slots and requests (section 11.10). -/
inductive Outcome where
  | none
  | ok
  | refused
  | timeout
  | check
  | broken
  | length
  | address
  | sequence
  | conflict
  | squeezed
  | skipped
  | aborted
  | notReady
deriving DecidableEq, Repr

/-- A result record (R48). -/
structure SlotResult where
  outcome : Outcome
  attempts : Nat
  resync : Bool
  afterBoundary : Bool
  startedLate : Bool
  arrival : Half
  cycle : Half
  generation : Byte
  lateness : Byte
deriving DecidableEq, Repr

/-- The Schedule Store (chapter 3, introduction). -/
structure Schedule where
  bank0 : Bank
  bank1 : Bank
  /-- active-bank index: true names bank 1 -/
  active : Bool
  changeover : ChangeoverState
  checkPos : Option CheckPos
  /-- the last changeover ended SWAPPED (R44, R46) -/
  lastSwapped : Bool
  changeovers : Half
  changeoversLatch : Byte
  /-- bytes copied so far by a running copy (R47) -/
  copy : Option Nat
  results : Two (Vector SlotResult 32)
  /-- reference periods the running check or copy has lasted; the model's own, for the bounds of R41 and R47 -/
  age : Nat
deriving DecidableEq, Repr

/-! ## Acyclic descriptors (chapter 8) -/

/-- An acyclic descriptor (section 11.9): any bytes, judged by POST (R129). -/
structure Descriptor where
  tag : Byte
  station : Byte
  kind : Byte
  requestLength : Byte
  replyLength : Byte
  retryLimit : Byte
  reservation : Half
  replyWindow : Half
  allowOffline : Byte
  payload : Vector Byte 32
deriving DecidableEq, Repr

/-- One line's staging descriptor and queue (R128, R130). -/
structure AcyclicStore where
  staging : Descriptor
  queue : List Descriptor
deriving DecidableEq, Repr

/-! ## Line engines (chapters 1 and 4) -/

inductive EngineState where
  | off
  | wait
  | transmit
  | await
  | receive
  | quiet
  | gap
deriving DecidableEq, Repr

/-- Event mask of a line (R55). -/
structure EventMask where
  stationOnline : Bool
  stationOffline : Bool
  statusChange : Bool
  cycleOverrun : Bool
deriving DecidableEq, Repr

/-- The values of a new-cycle notice (R52). -/
structure Notice where
  cycle : Half
  bank : Bool
  changeovers : Half
deriving DecidableEq, Repr

/-- The answer to an entry read (R38). -/
structure ReadEntry where
  index : Fin 32
  entry : Entry
  budgetEnd : Half
deriving DecidableEq, Repr

/-- The slot context (R61). -/
structure Slot where
  index : Fin 32
  entry : Entry
  budgetEnd : Half
  cycle : Half
  changeovers : Half
  lateness : Byte
  startedLate : Bool
  attempts : Nat
  /-- a RESYNC is substituted for the entry's kind (R64) -/
  resync : Bool
  afterBoundary : Bool
  arrival : Half
  /-- the notice the slot began under is still the engine's held notice (R60) -/
  noticeHeld : Bool
  /-- an acyclic request completed with no time remaining and its frame gap runs (R63); the model's own, log 11 -/
  carried : Bool
deriving DecidableEq, Repr

/-- A character as the receiver hands it on (R3). -/
structure RxChar where
  byte : Byte
  head : Bool
  framing : Bool
deriving DecidableEq, Repr

/-- The timer's value and cycle number captured at a start edge; `stopped` marks a capture made while no cycle ran (R30). -/
structure Capture where
  cycle : Half
  value : Half
  stopped : Bool
deriving DecidableEq, Repr

/-- Where a start edge fell: during the transmission of the request's character `k`, in the reply window, or elsewhere. -/
inductive EdgePlace where
  | sending (k : Nat)
  | window
  | elsewhere
deriving DecidableEq, Repr

/-- The stages of a reply after its head (R9). -/
inductive ReplyStage where
  | kind
  | length
  | payload
  | checkHigh
  | checkLow
deriving DecidableEq, Repr

/-- A reply under judgement (R9, R10): what is awaited next and what has been kept. -/
structure Reply where
  stage : ReplyStage
  seqBit : Bool
  refuse : Bool
  nibble : BitVec 4
  length : Byte
  /-- payload characters received -/
  got : Nat
  crc : Half
  checkHigh : Byte
deriving DecidableEq, Repr

/-- The attempt context (R67 to R71). -/
structure Attempt where
  station : Byte
  kind : Byte
  seqBit : Bool
  /-- reply length required, 255 for any (R6) -/
  expected : Byte
  replyWindow : Half
  /-- the request's characters, head first (R4) -/
  frame : List Byte
  /-- characters whose stop bit has ended -/
  sent : Nat
  /-- the echo of the character being sent (R13) -/
  echo : Option RxChar
  /-- the reply window's length has passed with a character in reception (R8) -/
  windowOver : Bool
  arrival : Option Capture
  reply : Option Reply
  /-- the outcome judged on entering QUIET (R71) -/
  judged : Option Outcome
deriving DecidableEq, Repr

/-- A slot's snapshot of an output image (R123). -/
structure Snapshot where
  bytes : Vector Byte 32
  generation : Byte
deriving DecidableEq, Repr

/-- The acyclic request in progress (R133). -/
structure Request where
  desc : Descriptor
  cycle : Half
  index : Fin 32
  attempts : Nat
deriving DecidableEq, Repr

/-- A character on TX and the reference periods since its start bit began (R2). -/
structure TxChar where
  byte : Byte
  head : Bool
  clock : Nat
deriving DecidableEq, Repr

/-- A character in reception (R3): its start edge, and the samples, votes and decided bits so far. -/
structure RxProgress where
  place : EdgePlace
  capture : Capture
  /-- sample periods since the start edge, sixteen to the bit -/
  count : Nat
  votes : List Bool
  bits : List Bool
deriving DecidableEq, Repr

/-- The receiver (R3). -/
structure Receiver where
  prev : Option Bool
  char : Option RxProgress
deriving DecidableEq, Repr

/-- A line engine (chapter 4, introduction) with its transmitter and receiver (chapter 1). -/
structure Engine where
  divisor : Half
  divisorHold : Byte
  frameGap : Byte
  charGap : Byte
  failThreshold : Byte
  probeInterval : Byte
  echoCheck : Bool
  mask : EventMask
  state : EngineState
  notice : Option Notice
  walk : Nat
  next : Option ReadEntry
  slot : Option Slot
  attempt : Option Attempt
  /-- the reply buffer in the attempt context (R66, R100) -/
  held : Option (Fin 72)
  snapshot : Option Snapshot
  request : Option Request
  /-- outcome of a failed attempt whose retry decision is still to come (R72, R73) -/
  failed : Option Outcome
  /-- finishing a character after LINE_DISABLE (R80) -/
  disabling : Bool
  overruns : Byte
  strays : Byte
  tx : Option TxChar
  rx : Receiver
  /-- reference periods since the moment the present wait is counted from (R8, R9, R11, R12) -/
  elapsed : Nat
  /-- reference periods of idle line (R11) -/
  idle : Nat
  /-- reference periods into the sample period (R1) -/
  sampleClock : Nat
deriving DecidableEq, Repr

/-! ## Station Table (chapter 5) -/

inductive Health where
  | unknown
  | online
  | suspect
  | offline
  | parked
deriving DecidableEq, Repr

/-- A station record (section 5.1). -/
structure Station where
  health : Health
  failCount : Byte
  /-- the send sequence S -/
  s : Bool
  nibble : BitVec 4
  probe : Byte
  lastOutcome : Outcome
  lastOkCycle : Half
  okCount : Half
  failureCount : Half
  timeoutCount : Half
  corruptCount : Half
deriving DecidableEq, Repr

/-! ## Buffer Pool and Mailboxes (chapter 6) -/

/-- A reply buffer: header and payload (section 6.1). -/
structure Buffer where
  line : Line
  station : Byte
  kind : Byte
  nibble : BitVec 4
  seqBit : Bool
  length : Byte
  cycle : Half
  arrival : Half
  label : Byte
  payload : Vector Byte 32
deriving DecidableEq, Repr

/-- The Buffer Pool (R100 to R107). -/
structure Pool where
  buffers : Vector Buffer 72
  free : List (Fin 72)
  /-- empty-episode flag (R104) -/
  episode : Bool
  misses : Byte
deriving DecidableEq, Repr

inductive MailboxState where
  | empty
  | full
  | claimed
  | claimedNext
deriving DecidableEq, Repr

/-- A mailbox (R108). -/
structure Mailbox where
  state : MailboxState
  current : Option (Fin 72)
  next : Option (Fin 72)
  fresh : Bool
  overwrites : Byte
  publishes : Half
deriving DecidableEq, Repr

/-! ## Output Image Store (chapter 7) -/

/-- An output image (R119). -/
structure Image where
  staged : Vector Byte 32
  live : Vector Byte 32
  generation : Byte
deriving DecidableEq, Repr

/-- The Output Image Store: 64 images and the marked set, as one flag for each number (R125). -/
structure ImageStore where
  images : Vector Image 64
  marked : Vector Bool 64
deriving DecidableEq, Repr

/-! ## Event Queue (chapter 9) -/

inductive EventKind where
  | acyclicDone
  | stationOnline
  | stationOffline
  | statusChange
  | cycleOverrun
  | changeoverDone
  | changeoverRefused
  | copyDone
  | syncLost
  | syncRegained
  | poolEmpty
  | overflow
deriving DecidableEq, Repr

/-- An event entry (R142). Has-buffer is the presence of the attached buffer. -/
structure Event where
  kind : EventKind
  line : Option Line := none
  station : Byte := 0
  code : Byte := 0
  cycle : Half := 0
  tag : Byte := 0
  entryIndex : Byte := 0
  bufferLength : Byte := 0
  nibble : BitVec 4 := 0
  attempts : Nat := 0
  buffer : Option (Fin 72) := none
deriving DecidableEq, Repr

/-- The Event Queue (chapter 9, introduction). The reservation count is the number of lines that hold one. -/
structure EventQueue where
  entries : List Event
  reserved : Two Bool
  drops : Byte
deriving DecidableEq, Repr

/-! ## Host Port (chapter 10) -/

inductive ResetCause where
  | pin
  | soft
deriving DecidableEq, Repr

/-- Answers to commands (R163). -/
inductive CmdStatus where
  | none
  | accepted
  | badCommand
  | badArgument
  | wrongState
  | busy
  | full
  | empty
  | notFound
  | tooLate
  | notClaimed
  | alreadyClaimed
deriving DecidableEq, Repr

/-- The latchable records of the window (R159). -/
inductive RecordId where
  | result (l : Line) (i : Fin 32)
  | station (l : Line) (a : Fin 62)
  | mailbox (m : Fin 48)
  | eventHead
deriving DecidableEq, Repr

/-- The read latch: a record's identity and its bytes (R159). -/
structure Latch where
  id : RecordId
  bytes : List Byte
deriving DecidableEq, Repr

/-- The Host Port (chapter 10, introduction). -/
structure HostPort where
  ptr : Half
  latch : Option Latch
  winError : Bool
  winLocked : Bool
  setLocked : Bool
  cmdRefused : Bool
  cause : ResetCause
  cmd : Byte
  arg0 : Byte
  arg1 : Byte
  status : CmdStatus
  /-- enables of EVQ, CYC and ERR in bits 0 to 2 (R152) -/
  irqEnable : BitVec 3
  /-- the byte the last access drove on D0 to D7, none when it drove nothing (R154) -/
  data : Option Byte
deriving DecidableEq, Repr

/-! ## Pins -/

/-- An input pin: its level and the samples still to come; with none to come the level stays (log 10). -/
structure InputPin where
  level : Bool
  upcoming : List Bool
deriving DecidableEq, Repr

/-- The sampled input pins. -/
structure Inputs where
  sync : InputPin
  rx : Two InputPin
deriving DecidableEq, Repr

/-! ## The whole part -/

/-- The state of the part. -/
structure State where
  timer : Timer
  schedule : Schedule
  lines : Two Engine
  stations : Two (Vector Station 62)
  pool : Pool
  mailboxes : Vector Mailbox 48
  images : ImageStore
  acyclic : Two AcyclicStore
  events : EventQueue
  host : HostPort
  inputs : Inputs
  /-- held in pin reset (R165) -/
  inReset : Bool
  /-- open choices drawn so far; the model's own, log 5 -/
  choices : Nat
  /-- commands waiting, first in first out -/
  pending : List Instr
deriving DecidableEq, Repr

/-- Faults. The spec gives the part no behaviour that stops it: a command is taken or refused with a status code, an access
is answered or ignored with a flag, an event is handled in every state. So no constructor (log 22). -/
inductive Fault where
deriving DecidableEq, Repr

/-- Refusals. -/
inductive Refusal where
  /-- Raised by an arm of exec for a command that has no meaning yet; safe, since nothing is claimed of it. No arm raises it. -/
  | notModelled (mnemonic : String)
deriving DecidableEq, Repr

/-! ## The state after reset -/

/-- R31 -/
def Timer.reset : Timer :=
  { mode := .free, syncOutEnable := false, prescaler := 0, period := 1000, window := 4, periodHold := 0xE8,
    state := .stopped, sync := .notUsed, value := 0, subTick := 0, cycleCount := 0, cycleFlag := false, early := 0,
    pulse := false, prevSync := none, valueLatch := 0, countLatch := 0 }

/-- The zero entry record (R32). -/
def Entry.zero : Entry :=
  { offset := 0, station := 0, kind := 0, requestLength := 0, replyLength := 0, image := 0, mailbox := 0,
    reservation := 0, replyWindow := 0, retryLimit := 0, divider := 0, phase := 0, label := 0 }

/-- The list of a line in a bank after reset (R32). -/
def SlotList.reset : SlotList := { entries := Vector.replicate 32 Entry.zero, count := 0 }

/-- A bank after reset (R32). -/
def Bank.reset : Bank := ⟨SlotList.reset, SlotList.reset⟩

/-- A result record with outcome NONE: every field 0 (R48). -/
def SlotResult.none : SlotResult :=
  { outcome := .none, attempts := 0, resync := false, afterBoundary := false, startedLate := false, arrival := 0,
    cycle := 0, generation := 0, lateness := 0 }

/-- Every result record NONE (R49). -/
def clearedResults : Two (Vector SlotResult 32) :=
  ⟨Vector.replicate 32 SlotResult.none, Vector.replicate 32 SlotResult.none⟩

/-- R54 -/
def Schedule.reset : Schedule :=
  { bank0 := Bank.reset, bank1 := Bank.reset, active := false, changeover := .none, checkPos := none,
    lastSwapped := false, changeovers := 0, changeoversLatch := 0, copy := none, results := clearedResults, age := 0 }

/-- The zero descriptor (R128). -/
def Descriptor.zero : Descriptor :=
  { tag := 0, station := 0, kind := 0, requestLength := 0, replyLength := 0, retryLimit := 0, reservation := 0,
    replyWindow := 0, allowOffline := 0, payload := Vector.replicate 32 0 }

/-- R141 -/
def AcyclicStore.reset : AcyclicStore := { staging := Descriptor.zero, queue := [] }

/-- R81; settings from section 4.1 -/
def Engine.reset : Engine :=
  { divisor := 119, divisorHold := 0x77, frameGap := 4, charGap := 4, failThreshold := 3, probeInterval := 8,
    echoCheck := false,
    mask := { stationOnline := true, stationOffline := true, statusChange := true, cycleOverrun := true },
    state := .off, notice := none, walk := 0, next := none, slot := none, attempt := none, held := none,
    snapshot := none, request := none, failed := none, disabling := false, overruns := 0, strays := 0,
    tx := none, rx := { prev := none, char := none }, elapsed := 0, idle := 0, sampleClock := 0 }

/-- R83 -/
def Station.reset : Station :=
  { health := .unknown, failCount := 0, s := false, nibble := 0, probe := 0, lastOutcome := .none, lastOkCycle := 0,
    okCount := 0, failureCount := 0, timeoutCount := 0, corruptCount := 0 }

/-- A buffer after reset: every header field and payload byte 0 (R101). -/
def Buffer.reset : Buffer :=
  { line := .a, station := 0, kind := 0, nibble := 0, seqBit := false, length := 0, cycle := 0, arrival := 0,
    label := 0, payload := Vector.replicate 32 0 }

/-- R107 -/
def Pool.reset : Pool :=
  { buffers := Vector.replicate 72 Buffer.reset, free := List.finRange 72, episode := false, misses := 0 }

/-- R118 -/
def Mailbox.reset : Mailbox :=
  { state := .empty, current := none, next := none, fresh := false, overwrites := 0, publishes := 0 }

/-- R119, R125 -/
def ImageStore.reset : ImageStore :=
  { images := Vector.replicate 64
      { staged := Vector.replicate 32 0, live := Vector.replicate 32 0, generation := 0 },
    marked := Vector.replicate 64 false }

/-- R153 -/
def EventQueue.reset : EventQueue := { entries := [], reserved := ⟨false, false⟩, drops := 0 }

/-- R167, after a pin reset. -/
def HostPort.reset : HostPort :=
  { ptr := 0, latch := none, winError := false, winLocked := false, setLocked := false, cmdRefused := false,
    cause := .pin, cmd := 0, arg0 := 0, arg1 := 0, status := .none, irqEnable := 0, data := none }

/-- An input pin at rest, at 1 (log 4). -/
def InputPin.atRest : InputPin := { level := true, upcoming := [] }

/-- The part right after a pin reset, RESET high again: every block in its reset state (R165), no command waiting. -/
def State.reset : State :=
  { timer := Timer.reset, schedule := Schedule.reset, lines := ⟨Engine.reset, Engine.reset⟩,
    stations := ⟨Vector.replicate 62 Station.reset, Vector.replicate 62 Station.reset⟩, pool := Pool.reset,
    mailboxes := Vector.replicate 48 Mailbox.reset, images := ImageStore.reset,
    acyclic := ⟨AcyclicStore.reset, AcyclicStore.reset⟩, events := EventQueue.reset, host := HostPort.reset,
    inputs := { sync := InputPin.atRest, rx := ⟨InputPin.atRest, InputPin.atRest⟩ }, inReset := false, choices := 0,
    pending := [] }

end Sys2Proof.Machine
end

