-- ==== Sys2Proof/Machine/Ops.lean ====
section
/-! DEFINITION. The shared operations of the model: bytes of 16-bit words, a line's part of a pair, one update for each block of
State, access to single records, the open choices, and the giving of a command. -/

namespace Sys2Proof

/-- One line's part of a pair. -/
def Two.get (t : Two α) (l : Line) : α :=
  match l with
  | .a => t.a
  | .b => t.b

/-- A pair with one line's part replaced. -/
def Two.set (t : Two α) (l : Line) (x : α) : Two α :=
  match l with
  | .a => { t with a := x }
  | .b => { t with b := x }

/-- A vector with the element at an index replaced. -/
def setAt (v : Vector α n) (i : Fin n) (x : α) : Vector α n := v.set i.val x i.isLt

namespace Machine

/-! ## Bytes -/

/-- The less significant byte of a 16-bit value. -/
def lowByte (h : Half) : Byte := h.setWidth 8

/-- The more significant byte of a 16-bit value. -/
def highByte (h : Half) : Byte := (h >>> 8).setWidth 8

/-- The 16-bit value of two bytes, low then high (00_scope.md, Numbers and byte order). -/
def halfOf (low high : Byte) : Half := high ++ low

/-- A 16-bit value with its low byte replaced. -/
def withLow (h : Half) (v : Byte) : Half := halfOf v (highByte h)

/-- A 16-bit value with its high byte replaced. -/
def withHigh (h : Half) (v : Byte) : Half := halfOf (lowByte h) v

/-- A flag as a byte. -/
def byteOfBool (b : Bool) : Byte := if b then 1 else 0

/-- A count of at most 255 as a byte, staying at 255 above it. -/
def satByte (n : Nat) : Byte := BitVec.ofNat 8 (min n 255)

/-- One more on a counter that stays at its largest value (00_scope.md, Numbers and byte order). -/
def satInc (x : BitVec w) : BitVec w := if x = BitVec.allOnes w then x else x + 1

/-! ## One update for each block -/

def State.withTimer (s : State) (x : Timer) : State := { s with timer := x }
def State.withSchedule (s : State) (x : Schedule) : State := { s with schedule := x }
def State.withLines (s : State) (x : Two Engine) : State := { s with lines := x }
def State.withStations (s : State) (x : Two (Vector Station 62)) : State := { s with stations := x }
def State.withPool (s : State) (x : Pool) : State := { s with pool := x }
def State.withMailboxes (s : State) (x : Vector Mailbox 48) : State := { s with mailboxes := x }
def State.withImages (s : State) (x : ImageStore) : State := { s with images := x }
def State.withAcyclic (s : State) (x : Two AcyclicStore) : State := { s with acyclic := x }
def State.withEvents (s : State) (x : EventQueue) : State := { s with events := x }
def State.withHost (s : State) (x : HostPort) : State := { s with host := x }
def State.withInputs (s : State) (x : Inputs) : State := { s with inputs := x }
def State.withChoices (s : State) (x : Nat) : State := { s with choices := x }

/-! ## Single records -/

/-- The engine of a line. -/
def State.engine (s : State) (l : Line) : Engine := s.lines.get l

/-- The state with one line's engine replaced. -/
def State.setEngine (s : State) (l : Line) (e : Engine) : State := s.withLines (s.lines.set l e)

/-- The record of a station, by line and address less one (R82). -/
def State.station (s : State) (l : Line) (i : Fin 62) : Station := (s.stations.get l)[i]

/-- The state with one station record replaced. -/
def State.setStation (s : State) (l : Line) (i : Fin 62) (r : Station) : State :=
  s.withStations (s.stations.set l (setAt (s.stations.get l) i r))

/-- The state with one mailbox replaced. -/
def State.setMailbox (s : State) (m : Fin 48) (x : Mailbox) : State := s.withMailboxes (setAt s.mailboxes m x)

/-- The state with one reply buffer's contents replaced. -/
def State.setBuffer (s : State) (b : Fin 72) (x : Buffer) : State :=
  s.withPool { s.pool with buffers := setAt s.pool.buffers b x }

/-- The state with one line's acyclic store replaced. -/
def State.setAcyclic (s : State) (l : Line) (x : AcyclicStore) : State := s.withAcyclic (s.acyclic.set l x)

/-- The place in the Station Table of an address byte: addresses 1 to 62 have records, 0 and 63 have none (R82). -/
def stationIx (address : Byte) : Option (Fin 62) :=
  if h : 1 ≤ address.toNat ∧ address.toNat ≤ 62 then some ⟨address.toNat - 1, by omega⟩ else none

/-! ## Open choices -/

/-- Draw one of the choices the spec leaves open (log 5). -/
def State.drawn (s : State) : State := s.withChoices (s.choices + 1)

/-- Put one list of appends with another that comes from other blocks at the same moment: either may be first (R143). Nothing is
open when one of them is empty. -/
def eitherOrder (s : State) (xs ys : List α) : List α × State :=
  if xs.isEmpty then (ys, s)
  else if ys.isEmpty then (xs, s)
  else (if Config.freeOrder s.choices % 2 = 0 then xs ++ ys else ys ++ xs, s.drawn)

/-- Put one append among several that come from other blocks at the same moment: at any place between them (R143). -/
def anyPlace (s : State) (x : α) (ys : List α) : List α × State :=
  if ys.isEmpty then ([x], s)
  else
    let k := Config.freeOrder s.choices % (ys.length + 1)
    (ys.take k ++ x :: ys.drop k, s.drawn)

/-! ## Accesses, events and commands -/

/-- A host access: none is taken while the part is held in reset (R165); the access drives the data lines only if it is a read
(R154). -/
def State.access (s : State) (f : State → State) : State :=
  if s.inReset then s else f (s.withHost { s.host with data := none })

/-- An event of the lines, of the timer or of a clocked operation: nothing runs while the part is held in reset (R165). -/
def State.event (s : State) (f : State → State) : State := if s.inReset then s else f s

/-- Give a command (R162): CMD takes the code, CMD_STATUS the answer; a refusal sets CMD_REFUSED and leaves the rest as it was. -/
def State.give (s : State) (code : Byte) (command : State → Except CmdStatus State) : State :=
  match command s with
  | .ok t => t.withHost { t.host with cmd := code, status := .accepted }
  | .error r => s.withHost { s.host with cmd := code, status := r, cmdRefused := true }

/-- The outcome of a command of this part: it always has a next state. -/
abbrev Next := Host.Outcome State Fault Refusal

/-- A command of the host given by a write to CMD (R162). -/
def commandAccess (code : Byte) (command : State → Except CmdStatus State) (s : State) : State :=
  s.access fun t => t.give code command

end Machine

end Sys2Proof
end

