-- ==== Sys2Proof/Machine/Flags.lean ====
section
/-! DEFINITION. The flags: the sticky host flags (R161), the interrupt status, its enables and the interrupt line (R151, R152),
and the packed registers that show them (section 11.1). -/

namespace Sys2Proof.Machine

/-- Set WIN_ERROR (R158). -/
def State.flagWinError (s : State) : State := s.withHost { s.host with winError := true }

/-- Set WIN_LOCKED (R33). -/
def State.flagWinLocked (s : State) : State := s.withHost { s.host with winLocked := true }

/-- Set SET_LOCKED (R15, R16, R55). -/
def State.flagSetLocked (s : State) : State := s.withHost { s.host with setLocked := true }

/-- The bits of a byte from a list, bit 0 first. -/
def byteOfBits (bits : List Bool) : Byte := bits.foldr (fun b acc => (acc <<< 1) ||| byteOfBool b) 0

/-- HOST_STATUS as read: the four flags in bits 0 to 3, the reset cause in bit 7 (section 11.1). -/
def hostStatus (h : HostPort) : Byte :=
  byteOfBits [h.winError, h.winLocked, h.setLocked, h.cmdRefused, false, false, false, h.cause == .soft]

/-- HOST_STATUS written: each 1 clears the flag in its position (R161). -/
def clearSticky (h : HostPort) (v : Byte) : HostPort :=
  { h with
    winError := h.winError && !v.getLsbD 0
    winLocked := h.winLocked && !v.getLsbD 1
    setLocked := h.setLocked && !v.getLsbD 2
    cmdRefused := h.cmdRefused && !v.getLsbD 3 }

/-- EVQ reads 1 while the queue holds an entry (R151). -/
def State.evq (s : State) : Bool := !s.events.entries.isEmpty

/-- CYC reads 1 while the CYCLE flag is set (R151). -/
def State.cyc (s : State) : Bool := s.timer.cycleFlag

/-- ERR reads 1 while a sticky flag is set (R151). -/
def State.err (s : State) : Bool :=
  s.host.winError || s.host.winLocked || s.host.setLocked || s.host.cmdRefused

/-- IRQ_STATUS as read (R151). -/
def State.irqStatus (s : State) : Byte := byteOfBits [s.evq, s.cyc, s.err]

/-- The interrupt output, true while it is driven low (R152). The part in pin reset releases it (R165). -/
def State.irqDriven (s : State) : Bool :=
  (s.evq && s.host.irqEnable.getLsbD 0) || (s.cyc && s.host.irqEnable.getLsbD 1)
    || (s.err && s.host.irqEnable.getLsbD 2)

/-- HOST_STATUS_WRITE (R161). -/
def execHostStatusWrite (v : Byte) (s : State) : Next :=
  .next (s.access fun t => t.withHost (clearSticky t.host v))

/-- IRQ_STATUS_WRITE: a 1 in the CYC position clears the CYCLE flag, every other position is ignored (R151, R24). -/
def execIrqStatusWrite (v : Byte) (s : State) : Next :=
  .next (s.access fun t => if v.getLsbD 1 then t.withTimer { t.timer with cycleFlag := false } else t)

/-- IRQ_ENABLE_WRITE: the three enables, at once; the other positions are ignored (R152). -/
def execIrqEnableWrite (v : Byte) (s : State) : Next :=
  .next (s.access fun t => t.withHost { t.host with irqEnable := v.setWidth 3 })

end Sys2Proof.Machine
end

