-- ==== Sys2Proof/Machine/Operands.lean ====
section
/-! DEFINITION. The operand forms of the part: the arguments of commands (R162), the code tables (section 11.10), the byte
layouts of every record (sections 11.3 to 11.9) and the map of the indirect window (section 11.2). -/

namespace Sys2Proof.Machine

/-! ## Command arguments -/

/-- A line argument: 0 is A, 1 is B, any other is no line (section 10.4). -/
def lineArg (v : Byte) : Option Line :=
  if v = 0 then some .a else if v = 1 then some .b else none

/-- A mailbox argument: 0 to 47 (R112). -/
def mailboxArg (v : Byte) : Option (Fin 48) := if h : v.toNat < 48 then some ⟨v.toNat, h⟩ else none

/-- An image argument: 0 to 63 (R122). -/
def imageArg (v : Byte) : Option (Fin 64) := if h : v.toNat < 64 then some ⟨v.toNat, h⟩ else none

/-! ## Kind codes (section 1.4, section 11.10) -/

def kindRead : Byte := 1
def kindWrite : Byte := 2
def kindExchange : Byte := 3
def kindStatus : Byte := 4
def kindResync : Byte := 5
def kindBroadcast : Byte := 6
def kindOpen : Byte := 16

/-- A USER kind, codes 8 to 15. -/
def isUser (k : Byte) : Bool := decide (8 ≤ k.toNat ∧ k.toNat ≤ 15)

/-- WRITE, EXCHANGE and the USER kinds carry the send sequence (R6, R7). -/
def isSequenced (k : Byte) : Bool := k == kindWrite || k == kindExchange || isUser k

/-- READ, STATUS and RESYNC carry no payload (R4). -/
def isBare (k : Byte) : Bool := k == kindRead || k == kindStatus || k == kindResync

/-- WRITE, EXCHANGE, BROADCAST and the USER kinds send outputs (R65). -/
def sendsOutputs (k : Byte) : Bool := isSequenced k || k == kindBroadcast

/-- The reply length the part requires: 0 for WRITE and RESYNC whatever is expected, 255 for any (R6). -/
def requiredLength (k expected : Byte) : Byte := if k == kindWrite || k == kindResync then 0 else expected

/-! ## Codes read by the host (section 11.10) -/

/-- Outcome codes. -/
def outcomeCode (o : Outcome) : Byte :=
  match o with
  | .none => 0 | .ok => 1 | .refused => 2 | .timeout => 3 | .check => 4 | .broken => 5 | .length => 6
  | .address => 7 | .sequence => 8 | .conflict => 9 | .squeezed => 10 | .skipped => 11 | .aborted => 12
  | .notReady => 13

/-- Health codes. -/
def healthCode (h : Health) : Byte :=
  match h with
  | .unknown => 0 | .online => 1 | .suspect => 2 | .offline => 3 | .parked => 4

/-- Engine state codes. -/
def engineCode (e : EngineState) : Byte :=
  match e with
  | .off => 0 | .wait => 1 | .transmit => 2 | .await => 3 | .receive => 4 | .quiet => 5 | .gap => 6

/-- Mailbox state codes. -/
def mailboxCode (m : MailboxState) : Byte :=
  match m with
  | .empty => 0 | .full => 1 | .claimed => 2 | .claimedNext => 3

/-- Timer state codes. -/
def timerCode (t : TimerState) : Byte :=
  match t with
  | .stopped => 0 | .running => 1 | .stopping => 2 | .single => 3

/-- Sync state codes. -/
def syncCode (t : SyncState) : Byte :=
  match t with
  | .notUsed => 0 | .seeking => 1 | .locked => 2 | .holdover => 3

/-- Changeover state codes. -/
def changeoverCode (c : ChangeoverState) : Byte :=
  match c with
  | .none => 0 | .checking => 1 | .armed => 2

/-- Command status codes (R163). -/
def statusCode (c : CmdStatus) : Byte :=
  match c with
  | .none => 0 | .accepted => 1 | .badCommand => 2 | .badArgument => 3 | .wrongState => 4 | .busy => 5
  | .full => 6 | .empty => 7 | .notFound => 8 | .tooLate => 9 | .notClaimed => 10 | .alreadyClaimed => 11

/-- Event kind codes. -/
def eventCode (k : EventKind) : Byte :=
  match k with
  | .acyclicDone => 1 | .stationOnline => 2 | .stationOffline => 3 | .statusChange => 4 | .cycleOverrun => 5
  | .changeoverDone => 6 | .changeoverRefused => 7 | .copyDone => 8 | .syncLost => 9 | .syncRegained => 10
  | .poolEmpty => 11 | .overflow => 12

/-- A line as a byte: 0 A, 1 B (sections 11.7, 11.8). -/
def lineCode (l : Line) : Byte :=
  match l with
  | .a => 0
  | .b => 1

/-- A buffer number as a byte, 255 when absent (sections 11.7, 11.8). -/
def bufferCode (b : Option (Fin 72)) : Byte :=
  match b with
  | some i => BitVec.ofNat 8 i.val
  | none => 255

/-! ## Schedule entries (section 11.3) -/

/-- The byte at a position of an entry record. -/
def entryByte (e : Entry) (k : Nat) : Byte :=
  match k with
  | 0 => lowByte e.offset | 1 => highByte e.offset | 2 => e.station | 3 => e.kind | 4 => e.requestLength
  | 5 => e.replyLength | 6 => e.image | 7 => e.mailbox | 8 => lowByte e.reservation | 9 => highByte e.reservation
  | 10 => lowByte e.replyWindow | 11 => highByte e.replyWindow | 12 => e.retryLimit | 13 => e.divider
  | 14 => e.phase | 15 => e.label | _ => 0

/-- An entry record with the byte at a position replaced. -/
def entryWith (e : Entry) (k : Nat) (v : Byte) : Entry :=
  match k with
  | 0 => { e with offset := withLow e.offset v }
  | 1 => { e with offset := withHigh e.offset v }
  | 2 => { e with station := v }
  | 3 => { e with kind := v }
  | 4 => { e with requestLength := v }
  | 5 => { e with replyLength := v }
  | 6 => { e with image := v }
  | 7 => { e with mailbox := v }
  | 8 => { e with reservation := withLow e.reservation v }
  | 9 => { e with reservation := withHigh e.reservation v }
  | 10 => { e with replyWindow := withLow e.replyWindow v }
  | 11 => { e with replyWindow := withHigh e.replyWindow v }
  | 12 => { e with retryLimit := v }
  | 13 => { e with divider := v }
  | 14 => { e with phase := v }
  | 15 => { e with label := v }
  | _ => e

/-! ## Acyclic descriptors (section 11.9) -/

/-- The byte at a position of a descriptor. -/
def descriptorByte (d : Descriptor) (k : Nat) : Byte :=
  match k with
  | 0 => d.tag | 1 => d.station | 2 => d.kind | 3 => d.requestLength | 4 => d.replyLength | 5 => d.retryLimit
  | 6 => lowByte d.reservation | 7 => highByte d.reservation | 8 => lowByte d.replyWindow
  | 9 => highByte d.replyWindow | 10 => d.allowOffline
  | k => d.payload[k - 11]?.getD 0

/-- A descriptor with the byte at a position replaced. -/
def descriptorWith (d : Descriptor) (k : Nat) (v : Byte) : Descriptor :=
  match k with
  | 0 => { d with tag := v }
  | 1 => { d with station := v }
  | 2 => { d with kind := v }
  | 3 => { d with requestLength := v }
  | 4 => { d with replyLength := v }
  | 5 => { d with retryLimit := v }
  | 6 => { d with reservation := withLow d.reservation v }
  | 7 => { d with reservation := withHigh d.reservation v }
  | 8 => { d with replyWindow := withLow d.replyWindow v }
  | 9 => { d with replyWindow := withHigh d.replyWindow v }
  | 10 => { d with allowOffline := v }
  | k => { d with payload := d.payload.setIfInBounds (k - 11) v }

/-- A position of a queue view: the occupied byte, bytes 0 to 10 of the descriptor, reserved bytes at 0 (section 11.9, R169). -/
def queueViewByte (d : Option Descriptor) (k : Nat) : Byte :=
  match d with
  | none => 0
  | some d => if k = 0 then 1 else if k ≤ 11 then descriptorByte d (k - 1) else 0

/-! ## Latched records -/

/-- A result record's 8 bytes (section 11.4). -/
def resultBytes (r : SlotResult) : List Byte :=
  [outcomeCode r.outcome,
   (BitVec.ofNat 3 r.attempts).setWidth 8 ||| (byteOfBool r.resync <<< 4) ||| (byteOfBool r.afterBoundary <<< 5)
     ||| (byteOfBool r.startedLate <<< 6),
   lowByte r.arrival, highByte r.arrival, lowByte r.cycle, highByte r.cycle, r.generation, r.lateness]

/-- A station record's 16 bytes (section 11.5). -/
def stationBytes (r : Station) : List Byte :=
  [healthCode r.health, r.failCount, byteOfBool r.s, r.nibble.setWidth 8, r.probe, outcomeCode r.lastOutcome,
   lowByte r.lastOkCycle, highByte r.lastOkCycle, lowByte r.okCount, highByte r.okCount,
   lowByte r.failureCount, highByte r.failureCount, lowByte r.timeoutCount, highByte r.timeoutCount,
   lowByte r.corruptCount, highByte r.corruptCount]

/-- The mailbox part of a mailbox view, 16 bytes (section 11.7). -/
def mailboxBytes (m : Mailbox) : List Byte :=
  [mailboxCode m.state, byteOfBool m.fresh, m.overwrites, lowByte m.publishes, highByte m.publishes,
   bufferCode m.current, bufferCode m.next, 0, 0, 0, 0, 0, 0, 0, 0, 0]

/-- The buffer header part of a mailbox view, offsets 16 to 31 counted from 0 (section 11.7). -/
def bufferHeaderByte (b : Buffer) (k : Nat) : Byte :=
  match k with
  | 0 => lineCode b.line | 1 => b.station | 2 => b.kind | 3 => b.nibble.setWidth 8 | 4 => byteOfBool b.seqBit
  | 5 => b.length | 6 => lowByte b.cycle | 7 => highByte b.cycle | 8 => lowByte b.arrival
  | 9 => highByte b.arrival | 10 => b.label | _ => 0

/-- A payload byte of a buffer: 0 at or above its length (R101). -/
def bufferPayloadByte (b : Buffer) (k : Nat) : Byte :=
  if k < b.length.toNat then b.payload[k]?.getD 0 else 0

/-- The header part of the event head view, 16 bytes (section 11.8); `buffers` gives the attached buffer's contents. -/
def eventBytes (buffers : Vector Buffer 72) (e : Event) : List Byte :=
  [eventCode e.kind, (match e.line with | some l => lineCode l | none => 255), e.station, e.code,
   lowByte e.cycle, highByte e.cycle, e.tag, e.entryIndex, byteOfBool e.buffer.isSome, e.bufferLength,
   e.nibble.setWidth 8, BitVec.ofNat 8 e.attempts, bufferCode e.buffer]
  ++ (match e.buffer with
      | some b => [lowByte buffers[b].arrival, highByte buffers[b].arrival, byteOfBool buffers[b].seqBit]
      | none => [0, 0, 0])

/-! ## The window map (section 11.2) -/

/-- What a window address names. -/
inductive WinTarget where
  | pendingEntry (l : Line) (i : Fin 32) (k : Nat)
  | activeEntry (l : Line) (i : Fin 32) (k : Nat)
  | pendingCount (l : Line)
  | activeCount (l : Line)
  | result (l : Line) (i : Fin 32) (k : Nat)
  | station (l : Line) (a : Fin 62) (k : Nat)
  | staged (n : Fin 64) (k : Nat)
  | live (n : Fin 64) (k : Nat)
  | generation (n : Fin 64)
  | marked (n : Fin 64)
  | mailboxPart (m : Fin 48) (k : Nat)
  | mailboxHeader (m : Fin 48) (k : Nat)
  | mailboxPayload (m : Fin 48) (k : Nat)
  | eventHeader (k : Nat)
  | eventPayload (k : Nat)
  | eventBufferHeader (k : Nat)
  | staging (l : Line) (k : Nat)
  | queueView (l : Line) (p k : Nat)
  | unmapped
deriving DecidableEq, Repr

/-- The place in a mailbox view: three parts (section 11.7). -/
def mailboxTarget (m : Fin 48) (k : Nat) : WinTarget :=
  if k < 16 then .mailboxPart m k else if k < 32 then .mailboxHeader m (k - 16) else .mailboxPayload m (k - 32)

/-- The region an address of the window lies in, and the place in it. -/
def winTarget (address : Half) : WinTarget :=
  let n := address.toNat
  if n < 0x0200 then .pendingEntry .a (Fin.ofNat 32 (n / 16)) (n % 16)
  else if n < 0x0400 then .pendingEntry .b (Fin.ofNat 32 (n / 16 - 32)) (n % 16)
  else if n < 0x0600 then .activeEntry .a (Fin.ofNat 32 (n / 16 - 64)) (n % 16)
  else if n < 0x0800 then .activeEntry .b (Fin.ofNat 32 (n / 16 - 96)) (n % 16)
  else if n = 0x0800 then .pendingCount .a
  else if n = 0x0801 then .pendingCount .b
  else if n = 0x0802 then .activeCount .a
  else if n = 0x0803 then .activeCount .b
  else if n < 0x0900 then .unmapped
  else if n < 0x0A00 then .result .a (Fin.ofNat 32 ((n - 0x0900) / 8)) (n % 8)
  else if n < 0x0B00 then .result .b (Fin.ofNat 32 ((n - 0x0A00) / 8)) (n % 8)
  else if n < 0x1010 then .unmapped
  else if n < 0x13F0 then .station .a (Fin.ofNat 62 ((n - 0x1010) / 16)) (n % 16)
  else if n < 0x1410 then .unmapped
  else if n < 0x17F0 then .station .b (Fin.ofNat 62 ((n - 0x1410) / 16)) (n % 16)
  else if n < 0x2000 then .unmapped
  else if n < 0x2800 then .staged (Fin.ofNat 64 ((n - 0x2000) / 32)) (n % 32)
  else if n < 0x3000 then .live (Fin.ofNat 64 ((n - 0x2800) / 32)) (n % 32)
  else if n < 0x3040 then .generation (Fin.ofNat 64 (n - 0x3000))
  else if n < 0x3080 then .marked (Fin.ofNat 64 (n - 0x3040))
  else if n < 0x4000 then .unmapped
  else if n < 0x4C00 then mailboxTarget (Fin.ofNat 48 ((n - 0x4000) / 64)) (n % 64)
  else if n < 0x5000 then .unmapped
  else if n < 0x5010 then .eventHeader (n - 0x5000)
  else if n < 0x5030 then .eventPayload (n - 0x5010)
  else if n < 0x5033 then .eventBufferHeader (n - 0x5030)
  else if n < 0x6000 then .unmapped
  else if n < 0x602B then .staging .a (n - 0x6000)
  else if n < 0x6040 then .unmapped
  else if n < 0x606B then .staging .b (n - 0x6040)
  else if n < 0x6100 then .unmapped
  else if n < 0x6140 then .queueView .a ((n - 0x6100) / 16) (n % 16)
  else if n < 0x6180 then .queueView .b ((n - 0x6140) / 16) (n % 16)
  else .unmapped

end Sys2Proof.Machine
end

