-- ==== Sys2Proof/Machine/Images.lean ====
section
/-! DEFINITION. The Output Image Store (chapter 7): publication at once and at a cycle begin, the marked set, snapshots. -/

namespace Sys2Proof.Machine

/-- A publication: the staged bytes become the live copy and the generation advances (R119). -/
def Image.publish (i : Image) : Image := { i with live := i.staged, generation := i.generation + 1 }

/-- Every marked image published and the set emptied, as one operation (R126). -/
def ImageStore.publishMarked (st : ImageStore) : ImageStore :=
  { images := Vector.ofFn fun n => if st.marked[n] then st.images[n].publish else st.images[n]
    marked := Vector.replicate 64 false }

/-- The snapshot of an image (R123). -/
def Image.snapshot (i : Image) : Snapshot := { bytes := i.live, generation := i.generation }

/-- A command of an image named in CMD_ARG0; a number of 64 or above is refused BAD_ARGUMENT. -/
def imageCommand (f : Fin 64 → ImageStore → ImageStore) (s : State) : Except CmdStatus State :=
  match imageArg s.host.arg0 with
  | some n => .ok (s.withImages (f n s.images))
  | none => .error .badArgument

/-- PUBLISH_IMAGE (R122). -/
def execPublishImage (s : State) : Next :=
  .next (commandAccess 0x30
    (imageCommand fun n st => { st with images := setAt st.images n st.images[n].publish }) s)

/-- MARK_IMAGE (R125). -/
def execMarkImage (s : State) : Next :=
  .next (commandAccess 0x31 (imageCommand fun n st => { st with marked := setAt st.marked n true }) s)

/-- UNMARK_ALL (R125). -/
def execUnmarkAll (s : State) : Next :=
  .next (commandAccess 0x32
    (fun t => .ok (t.withImages { t.images with marked := Vector.replicate 64 false })) s)

end Sys2Proof.Machine
end

