-- ==== Sys2Proof/Machine/Events.lean ====
section
/-! DEFINITION. The Event Queue (chapter 9): room, reservations, unreserved and reserved appends, and removal of the head. -/

namespace Sys2Proof.Machine

/-- Outstanding reservations: at most one a line (R143). -/
def EventQueue.reservations (q : EventQueue) : Nat := q.reserved.a.toNat + q.reserved.b.toNat

/-- Entries and reservations together (R143). -/
def EventQueue.load (q : EventQueue) : Nat := q.entries.length + q.reservations

/-- There is room for one more entry or reservation (R144, R146). -/
def EventQueue.hasRoom (q : EventQueue) : Bool := decide (q.load < Config.queueRoom)

/-- An unreserved append: admitted at the tail when there is room, else dropped and counted (R146). -/
def EventQueue.append (q : EventQueue) (e : Event) : EventQueue :=
  if q.hasRoom then { q with entries := q.entries ++ [e] } else { q with drops := satInc q.drops }

/-- A reservation granted to a line (R144). -/
def EventQueue.reserve (q : EventQueue) (l : Line) : EventQueue := { q with reserved := q.reserved.set l true }

/-- A reserved append: it always lands, and the line's reservation ceases (R145). -/
def EventQueue.appendReserved (q : EventQueue) (l : Line) (e : Event) : EventQueue :=
  { q with entries := q.entries ++ [e], reserved := q.reserved.set l false }

/-- An append of either sort. -/
inductive Append where
  | plain (e : Event)
  | reserved (l : Line) (e : Event)
deriving DecidableEq, Repr

/-- The queue after one append. -/
def EventQueue.apply (q : EventQueue) (a : Append) : EventQueue :=
  match a with
  | .plain e => q.append e
  | .reserved l e => q.appendReserved l e

/-- Appends taken one after another. -/
def State.appendAll (s : State) (as : List Append) : State := s.withEvents (as.foldl EventQueue.apply s.events)

/-- One unreserved append. -/
def State.appendEvent (s : State) (e : Event) : State := s.withEvents (s.events.append e)

/-- The queue after its head is removed: OVERFLOW delivers the drop count when it is above 0 (R148). -/
def EventQueue.afterPop (q : EventQueue) (rest : List Event) (cycle : Half) : EventQueue :=
  let q' := { q with entries := rest }
  if q.drops ≠ 0 ∧ q'.hasRoom then
    { q' with entries := rest ++ [{ kind := .overflow, code := q.drops, cycle := cycle }], drops := 0 }
  else q'

end Sys2Proof.Machine
end

