-- ==== Sys2Proof/Machine/Pool.lean ====
section
/-! DEFINITION. The Buffer Pool and the Mailboxes (chapter 6), and POP, which returns an event's buffer. -/

namespace Sys2Proof.Machine

/-! ## The free list -/

/-- A return: the buffer joins the tail of the free list and ends an empty episode (R105). -/
def Pool.give (p : Pool) (b : Fin 72) : Pool := { p with free := p.free ++ [b], episode := false }

/-- Returns in the order of a list; an absent buffer returns nothing. -/
def Pool.giveAll (p : Pool) (bs : List (Option (Fin 72))) : Pool :=
  bs.foldl (fun p b => match b with | some i => p.give i | none => p) p

/-- A return of a buffer, if there is one. -/
def State.giveBuffer (s : State) (b : Option (Fin 72)) : State := s.withPool (s.pool.giveAll [b])

/-- What a take is made for, as POOL_EMPTY shows it (R104). -/
structure TakeFor where
  station : Byte
  cycle : Half
  index : Byte
  tag : Byte
deriving DecidableEq, Repr

/-- A take (R103): the head of the free list goes to the line's attempt context. On an empty list it is a miss (R104): counted, and
POOL_EMPTY appended for the first of an empty episode. -/
def takeBuffer (l : Line) (w : TakeFor) (s : State) : State :=
  match s.pool.free with
  | b :: rest =>
    (s.withPool { s.pool with free := rest }).setEngine l { s.engine l with held := some b }
  | [] =>
    let missed := s.withPool { s.pool with misses := satInc s.pool.misses, episode := true }
    if s.pool.episode then missed
    else missed.appendEvent
      { kind := .poolEmpty, line := some l, station := w.station, cycle := w.cycle, entryIndex := w.index, tag := w.tag }

/-! ## Mailboxes -/

/-- A publication of a buffer, with the buffer it displaces (R109, R110). -/
def Mailbox.publish (m : Mailbox) (b : Fin 72) : Mailbox × Option (Fin 72) :=
  match m.state with
  | .empty => ({ m with state := .full, current := some b, fresh := true, publishes := m.publishes + 1 }, none)
  | .full =>
    ({ m with
        current := some b
        overwrites := if m.fresh then satInc m.overwrites else m.overwrites
        fresh := true
        publishes := m.publishes + 1 }, m.current)
  | .claimed => ({ m with state := .claimedNext, next := some b, publishes := m.publishes + 1 }, none)
  | .claimedNext =>
    ({ m with next := some b, overwrites := satInc m.overwrites, publishes := m.publishes + 1 }, m.next)

/-- Publish a buffer into a mailbox; a displaced buffer is returned (R109, R110). -/
def publishInto (i : Fin 48) (b : Fin 72) (s : State) : State :=
  ((s.setMailbox i (s.mailboxes[i].publish b).1)).giveBuffer (s.mailboxes[i].publish b).2

/-- The command of a mailbox named in CMD_ARG0; a number of 48 or above is refused BAD_ARGUMENT. -/
def mailboxCommand (f : Fin 48 → Mailbox → State → Except CmdStatus State) (s : State) : Except CmdStatus State :=
  match mailboxArg s.host.arg0 with
  | some i => f i s.mailboxes[i] s
  | none => .error .badArgument

/-- CLAIM of a mailbox (R112). -/
def claimMailbox (i : Fin 48) (m : Mailbox) (s : State) : Except CmdStatus State :=
  match m.state with
  | .full => .ok (s.setMailbox i { m with state := .claimed, fresh := false })
  | .empty => .error .empty
  | .claimed => .error .alreadyClaimed
  | .claimedNext => .error .alreadyClaimed

/-- RELEASE of a mailbox (R113). -/
def releaseMailbox (i : Fin 48) (m : Mailbox) (s : State) : Except CmdStatus State :=
  match m.state with
  | .claimed => .ok ((s.setMailbox i { m with state := .empty, current := none }).giveBuffer m.current)
  | .claimedNext =>
    .ok ((s.setMailbox i { m with state := .full, current := m.next, next := none, fresh := true }).giveBuffer m.current)
  | .empty => .error .notClaimed
  | .full => .error .notClaimed

/-- FLUSH of a mailbox: the current buffer is returned, then the next (R114). -/
def flushMailbox (i : Fin 48) (m : Mailbox) (s : State) : Except CmdStatus State :=
  let t := s.setMailbox i { m with state := .empty, current := none, next := none, fresh := false, overwrites := 0 }
  .ok (t.withPool (t.pool.giveAll [m.current, m.next]))

/-- CLAIM (R112). -/
def execClaim (s : State) : Next := .next (commandAccess 0x40 (mailboxCommand claimMailbox) s)

/-- RELEASE (R113). -/
def execRelease (s : State) : Next := .next (commandAccess 0x41 (mailboxCommand releaseMailbox) s)

/-- FLUSH (R114). -/
def execFlush (s : State) : Next := .next (commandAccess 0x42 (mailboxCommand flushMailbox) s)

/-- Write to POOL_MISSES: any value clears the counter, not the episode flag (R106). -/
def execPoolMissesWrite (_v : Byte) (s : State) : Next :=
  .next (s.access fun t => t.withPool { t.pool with misses := 0 })

/-! ## POP (R148) -/

/-- Remove the head event, return its buffer, deliver the drop count. -/
def popEvent (s : State) : Except CmdStatus State :=
  match s.events.entries with
  | [] => .error .empty
  | e :: rest => .ok ((s.withEvents (s.events.afterPop rest s.timer.cycleCount)).giveBuffer e.buffer)

/-- POP (R148). -/
def execPop (s : State) : Next := .next (commandAccess 0x60 popEvent s)

end Sys2Proof.Machine
end

