-- ==== Sys2Proof/Machine/Protocol.lean ====
section
/-! DEFINITION. The polled line protocol (chapter 1): the check value, the composition of requests, the judgement of replies, the
receiver's votes, and the pins of a line. -/

namespace Sys2Proof.Machine

/-! ## The check value (R5) -/

/-- One bit of the division by x^16 + x^12 + x^5 + 1. -/
def crcBit (c : Half) (b : Bool) : Half := (c <<< 1) ^^^ (if c.msb != b then 0x1021 else 0)

/-- The bits of a byte, most significant first. -/
def bitsOf (x : Byte) : List Bool := (List.range 8).map x.getMsbD

/-- One byte, most significant bit first. -/
def crcByte (c : Half) (x : Byte) : Half := (bitsOf x).foldl crcBit c

/-- The check value of a run of bytes, from 0xFFFF. -/
def crc (bytes : List Byte) : Half := bytes.foldl crcByte 0xFFFF

/-! ## Requests (R4) -/

/-- The head of a request: destination in bits 0 to 5, direction 0, sequence bit in bit 7 (section 1.3). -/
def requestHead (station : Byte) (seqBit : Bool) : Byte :=
  (station &&& 0x3F) ||| (if seqBit then 0x80 else 0)

/-- A body followed by its two check characters, high byte first. -/
def checked (body : List Byte) : List Byte := body ++ [highByte (crc body), lowByte (crc body)]

/-- The characters of a request (R4). -/
def requestFrame (station kind : Byte) (seqBit : Bool) (payload : List Byte) : List Byte :=
  checked (requestHead station seqBit :: (kind &&& 0x0F) :: BitVec.ofNat 8 payload.length :: payload)

/-! ## Judging a reply (R9, R10) -/

/-- What a character of a reply leads to. -/
inductive Judgement where
  /-- the reply goes on; a payload byte may be stored at its position -/
  | more (r : Reply) (store : Option (Nat × Byte))
  /-- ADDRESS, BROKEN or LENGTH: the quiet wait follows -/
  | failed (o : Outcome)
  /-- the whole frame is judged -/
  | whole (o : Outcome) (r : Reply)
deriving DecidableEq, Repr

/-- The judgement of the reply's head: form, then address and direction (R9, 1 and 2). -/
def judgeHead (a : Attempt) (c : RxChar) : Judgement :=
  if c.framing then .failed .broken
  else if c.byte.extractLsb' 0 6 ≠ a.station.extractLsb' 0 6 ∨ c.byte.getLsbD 6 = false then .failed .address
  else .more { stage := .kind, seqBit := c.byte.getLsbD 7, refuse := false, nibble := 0, length := 0, got := 0,
               crc := crcByte 0xFFFF c.byte, checkHigh := 0 } none

/-- The judgement of the kind character (R9, 3). -/
def judgeKind (a : Attempt) (r : Reply) (c : RxChar) : Judgement :=
  let code := c.byte.extractLsb' 0 4
  if code = 0 ∨ code = a.kind.extractLsb' 0 4 then
    .more { r with stage := .length, refuse := decide (code = 0), nibble := c.byte.extractLsb' 4 4 } none
  else .failed .broken

/-- The judgement of the length character (R9, 4). -/
def judgeLength (a : Attempt) (r : Reply) (c : RxChar) : Judgement :=
  if 32 < c.byte.toNat ∨ (r.refuse = false ∧ a.expected ≠ 255 ∧ c.byte ≠ a.expected) then .failed .length
  else .more { r with stage := if c.byte = 0 then .checkHigh else .payload, length := c.byte } none

/-- The judgement of the whole frame at its second check character (R10). -/
def judgeWhole (a : Attempt) (r : Reply) (low : Byte) : Outcome :=
  if halfOf low r.checkHigh ≠ r.crc then .check
  else if isSequenced a.kind = true ∧ r.seqBit ≠ a.seqBit then .sequence
  else if r.refuse then .refused
  else .ok

/-- The judgement of a character after the reply's head: form first (R9, 1), then by the reply's stage. The check value runs over
the head, kind, length and payload characters (R5). -/
def judgeNext (a : Attempt) (r : Reply) (c : RxChar) : Judgement :=
  if c.framing ∨ c.head then .failed .broken
  else match r.stage with
    | .kind => judgeKind a { r with crc := crcByte r.crc c.byte } c
    | .length => judgeLength a { r with crc := crcByte r.crc c.byte } c
    | .payload =>
      .more { r with
          stage := if r.got + 1 < r.length.toNat then .payload else .checkHigh
          got := r.got + 1
          crc := crcByte r.crc c.byte }
        (some (r.got, c.byte))
    | .checkHigh => .more { r with stage := .checkLow, checkHigh := c.byte } none
    | .checkLow => .whole (judgeWhole a r c.byte) r

/-! ## The receiver's votes (R3) -/

/-- The majority of three samples. -/
def majority (votes : List Bool) : Bool := decide (2 ≤ votes.countP id)

/-- A character from its eleven decided positions, start bit first. -/
def rxCharOf (bits : List Bool) : RxChar :=
  { byte := byteOfBools ((bits.drop 1).take 8), head := bits.getD 9 false, framing := !bits.getD 10 false }
where
  /-- data bits, least significant first -/
  byteOfBools (bs : List Bool) : Byte := bs.foldr (fun b acc => (acc <<< 1) ||| byteOfBool b) 0

/-! ## The pins of a line (R1, R2) -/

/-- Reference clock periods of one sample period (R1). -/
def Engine.samplePeriod (e : Engine) : Nat := e.divisor.toNat + 1

/-- Reference clock periods of one bit time (R1). -/
def Engine.bitTime (e : Engine) : Nat := 16 * e.samplePeriod

/-- The level of one of a character's eleven positions on TX (section 1.2). -/
def txLevel (c : TxChar) (position : Nat) : Bool :=
  if position = 0 then false
  else if position ≤ 8 then c.byte.getLsbD (position - 1)
  else if position = 9 then c.head
  else true

/-- TX: the position being sent, 1 outside a transmission (R2). -/
def Engine.txPin (e : Engine) : Bool :=
  match e.tx with
  | some c => txLevel c (c.clock / e.bitTime)
  | none => true

/-- DE: driven only in TRANSMIT (R2, section 4.2). -/
def Engine.dePin (e : Engine) : Bool := e.state == .transmit

end Sys2Proof.Machine
end

