-- ==== Sys2Proof/Machine/Schedule.lean ====
section
/-! DEFINITION. The Schedule Store (chapter 3): banks and their views, due entries and budgets, the check, the changeover, the copy,
result writes, and the commands CHANGEOVER, ABORT_CHANGEOVER and COPY_ACTIVE. -/

namespace Sys2Proof.Machine

/-! ## Banks (R32) -/

/-- The bank that the active-bank index names. -/
def Schedule.activeBank (s : Schedule) : Bank := if s.active then s.bank1 else s.bank0

/-- The other bank. -/
def Schedule.pendingBank (s : Schedule) : Bank := if s.active then s.bank0 else s.bank1

/-- The store with the pending bank replaced. -/
def Schedule.withPending (s : Schedule) (b : Bank) : Schedule :=
  if s.active then { s with bank0 := b } else { s with bank1 := b }

/-- The pending bank may not be written: CHECKING, ARMED or a copy under way (R33). -/
def Schedule.pendingShielded (s : Schedule) : Bool := s.changeover != .none || s.copy.isSome

/-! ## Due entries and entry reads (R36 to R38) -/

/-- An entry's divider (R36). -/
def Entry.cycles (e : Entry) : Nat := 2 ^ e.divider.toNat

/-- An entry is due in a cycle (R36). -/
def Entry.dueIn (e : Entry) (cycle : Half) : Bool := decide (cycle.toNat % e.cycles = e.phase.toNat)

/-- The entry at an index belongs to the list and is due (R34, R36). -/
def SlotList.dueAt (t : SlotList) (cycle : Half) (i : Fin 32) : Bool :=
  decide (i.val < t.count.toNat) && t.entries[i].dueIn cycle

/-- The first index at or above a position whose entry is due (R38). -/
def SlotList.nextDue (t : SlotList) (cycle : Half) (start : Nat) : Option (Fin 32) :=
  (List.finRange 32).find? fun i => decide (start ≤ i.val) && t.dueAt cycle i

/-- The budget end of a due entry: the offset of the next due entry, or the period (R37). -/
def SlotList.budgetEnd (t : SlotList) (period cycle : Half) (i : Fin 32) : Half :=
  match t.nextDue cycle (i.val + 1) with
  | some j => t.entries[j].offset
  | none => period

/-- An entry read (R38): answered from the active bank; a changeover count that is not the store's is answered that the list is
finished. -/
def Schedule.entryRead (s : Schedule) (period : Half) (l : Line) (n : Notice) (start : Nat) : Option ReadEntry :=
  if n.changeovers = s.changeovers then
    let t := s.activeBank.get l
    (t.nextDue n.cycle start).map fun i =>
      { index := i, entry := t.entries[i], budgetEnd := t.budgetEnd period n.cycle i }
  else none

/-! ## The check (R41) -/

/-- The number of the first check that an entry fails; `before` is the offset of the entry before it. -/
def Entry.failedCheck (e : Entry) (period : Half) (before : Option Half) : Option Byte :=
  if e.offset = 0 ∨ period.toNat ≤ e.offset.toNat then some 2
  else if before.any (fun b => e.offset.toNat ≤ b.toNat) then some 3
  else if e.kind = 0 ∨ e.kind = 7 ∨ 16 < e.kind.toNat then some 4
  else if (e.kind = kindBroadcast ∧ e.station ≠ 63) ∨ (e.station = 63 ∧ e.kind ≠ kindBroadcast) then some 5
  else if e.kind ≠ kindOpen ∧ e.kind ≠ kindBroadcast ∧ (e.station = 0 ∨ 62 < e.station.toNat) then some 6
  else if e.kind = kindOpen ∧ e.station ≠ 0 then some 7
  else if 32 < e.requestLength.toNat then some 8
  else if isBare e.kind ∧ e.requestLength ≠ 0 then some 9
  else if 32 < e.replyLength.toNat ∧ e.replyLength ≠ 255 then some 10
  else if 64 ≤ e.image.toNat then some 11
  else if 48 ≤ e.mailbox.toNat ∧ e.mailbox ≠ 255 then some 12
  else if e.reservation = 0 then some 13
  else if e.replyWindow = 0 ∨ 1023 < e.replyWindow.toNat then some 14
  else if 3 < e.retryLimit.toNat then some 15
  else if 7 < e.divider.toNat then some 16
  else if e.cycles ≤ e.phase.toNat then some 17
  else none

/-- A failure found by the check: the line, the reason, and the entry's index and station byte, or 255 and 0 for a count (R42). -/
structure CheckFailure where
  line : Line
  reason : Byte
  index : Byte
  station : Byte
deriving DecidableEq, Repr

/-- The check of the entry at an index. -/
def SlotList.checkEntry (t : SlotList) (period : Half) (l : Line) (i : Fin 32) : Option CheckFailure :=
  let before := if h : 0 < i.val then some (t.entries[i.val - 1]'(by omega)).offset else none
  (t.entries[i].failedCheck period before).map fun r =>
    { line := l, reason := r, index := BitVec.ofNat 8 i.val, station := t.entries[i].station }

/-- The check of a line's count. -/
def SlotList.checkCount (t : SlotList) (l : Line) : Option CheckFailure :=
  if 32 < t.count.toNat then some { line := l, reason := 1, index := 255, station := 0 } else none

/-- The check of a line: its count first, then its entries in order. -/
def SlotList.check (t : SlotList) (period : Half) (l : Line) : Option CheckFailure :=
  match t.checkCount l with
  | some f => some f
  | none =>
    (List.finRange 32).findSome? fun i => if i.val < t.count.toNat then t.checkEntry period l i else none

/-- The check of a bank: line A before line B (R41). -/
def bankCheck (b : Bank) (period : Half) : Option CheckFailure :=
  match b.a.check period .a with
  | some f => some f
  | none => b.b.check period .b

/-! ## Commands and the ends of a check (R40, R42, R43, R46) -/

/-- CHANGEOVER (R40). -/
def Schedule.startCheck (s : Schedule) : Except CmdStatus Schedule :=
  if s.pendingShielded then .error .busy
  else .ok { s with changeover := .checking, checkPos := some { line := .a, done := 0 }, age := 0 }

/-- ABORT_CHANGEOVER (R46). -/
def Schedule.abort (s : Schedule) : Except CmdStatus Schedule :=
  match s.changeover with
  | .none => .error (if s.lastSwapped then .tooLate else .wrongState)
  | .checking => .ok { s with changeover := .none, checkPos := none, lastSwapped := false }
  | .armed => .ok { s with changeover := .none, lastSwapped := false }

/-- COPY_ACTIVE (R47). -/
def Schedule.startCopy (s : Schedule) : Except CmdStatus Schedule :=
  if s.pendingShielded then .error .busy else .ok { s with copy := some 0, age := 0 }

/-- A command of the Schedule Store. -/
def scheduleCommand (f : Schedule → Except CmdStatus Schedule) (s : State) : Except CmdStatus State :=
  match f s.schedule with
  | .ok t => .ok (s.withSchedule t)
  | .error c => .error c

/-- CHANGEOVER (R40). -/
def execChangeover (s : State) : Next := .next (commandAccess 0x10 (scheduleCommand Schedule.startCheck) s)

/-- ABORT_CHANGEOVER (R46). -/
def execAbortChangeover (s : State) : Next := .next (commandAccess 0x11 (scheduleCommand Schedule.abort) s)

/-- COPY_ACTIVE (R47). -/
def execCopyActive (s : State) : Next := .next (commandAccess 0x12 (scheduleCommand Schedule.startCopy) s)

/-- The end of the check under way: ARMED, or NONE with CHANGEOVER_REFUSED (R42, R43). -/
def endCheck (s : State) : State :=
  if s.schedule.changeover = .checking then
    match bankCheck s.schedule.pendingBank s.timer.period with
    | none => s.withSchedule { s.schedule with changeover := .armed, checkPos := none }
    | some f =>
      (s.withSchedule { s.schedule with changeover := .none, checkPos := none, lastSwapped := false }).appendEvent
        { kind := .changeoverRefused, line := some f.line, station := f.station, code := f.reason,
          cycle := s.timer.cycleCount, entryIndex := f.index }
  else s

/-- CHANGEOVER_CHECK_END (R41 to R43). -/
def execChangeoverCheckEnd (s : State) : Next := .next (s.event endCheck)

/-! ## The copy (R47) -/

/-- A byte of a bank, numbered as COPY_ACTIVE takes them: line A's entries, line B's entries, the counts (R47; the order is DEDUCED
from the rule's own list, log 6). -/
def bankByte (b : Bank) (k : Nat) : Byte :=
  if k < 512 then entryByte (b.a.entries[(Fin.ofNat 32 (k / 16))]) (k % 16)
  else if k < 1024 then entryByte (b.b.entries[(Fin.ofNat 32 ((k - 512) / 16))]) (k % 16)
  else if k = 1024 then b.a.count
  else b.b.count

/-- A slot list with one byte of an entry replaced. -/
def SlotList.withEntryByte (t : SlotList) (i : Fin 32) (k : Nat) (v : Byte) : SlotList :=
  { t with entries := setAt t.entries i (entryWith t.entries[i] k v) }

/-- A bank with one byte replaced, numbered as in `bankByte`. -/
def bankWith (b : Bank) (k : Nat) (v : Byte) : Bank :=
  if k < 512 then { b with a := b.a.withEntryByte (Fin.ofNat 32 (k / 16)) (k % 16) v }
  else if k < 1024 then { b with b := b.b.withEntryByte (Fin.ofNat 32 ((k - 512) / 16)) (k % 16) v }
  else if k = 1024 then { b with a := { b.a with count := v } }
  else { b with b := { b.b with count := v } }

/-- A bank with `n` bytes from place `k` on taken from another. -/
def copyRun (source : Bank) : Nat → Nat → Bank → Bank
  | 0, _, target => target
  | n + 1, k, target => copyRun source n (k + 1) (bankWith target k (bankByte source k))

/-- A running copy comes some way further, never to its last byte: that is its end (R47, log 6). -/
def Schedule.copyOn (s : Schedule) (bytes : Nat) : Schedule :=
  match s.copy with
  | none => s
  | some k =>
    let n := min bytes (Config.copyBytes - 1 - k)
    { s.withPending (copyRun s.activeBank n k s.pendingBank) with copy := some (k + n) }

/-- A running copy looked at: it has come an open number of bytes further (R33, log 6). -/
def copyProgress (s : State) : State :=
  if s.schedule.copy.isSome then
    (s.withSchedule (s.schedule.copyOn (Config.freeCopied s.choices))).drawn
  else s

/-- The end of the running copy: the pending bank equals the active bank, and COPY_DONE is appended (R47). -/
def endCopy (s : State) : State :=
  if s.schedule.copy.isSome then
    (s.withSchedule { s.schedule.withPending s.schedule.activeBank with copy := none }).appendEvent
      { kind := .copyDone, cycle := s.timer.cycleCount }
  else s

/-- COPY_COMPLETE (R47). -/
def execCopyComplete (s : State) : Next := .next (s.event endCopy)

/-! ## The swap (R44) and results (R48 to R50) -/

/-- The swap of an armed changeover. -/
def Schedule.swap (s : Schedule) : Schedule :=
  if s.changeover = .armed then
    { s with active := !s.active, changeovers := s.changeovers + 1, results := clearedResults, changeover := .none,
             lastSwapped := true }
  else s

/-- CHANGEOVER_DONE of a swap made at the begin of a cycle (R44). -/
def Schedule.swapEvents (s : Schedule) (cycle : Half) : List Event :=
  if s.changeover = .armed then
    [{ kind := .changeoverDone, cycle := cycle, code := byteOfBool (!s.active) }]
  else []

/-- A result write, made when the writer's changeover count is the store's, else discarded (R50). -/
def Schedule.writeResult (s : Schedule) (l : Line) (i : Fin 32) (changeovers : Half) (r : SlotResult) : Schedule :=
  if changeovers = s.changeovers then
    { s with results := s.results.set l (setAt (s.results.get l) i r) }
  else s

/-- The result of an entry squeezed at a notice (R58). -/
def squeezedResult (cycle : Half) : SlotResult := { SlotResult.none with outcome := .squeezed, cycle := cycle }

/-- The result writes of the unbegun due entries of a walk (R58, step 1). -/
def Schedule.squeezeFrom (s : Schedule) (l : Line) (n : Notice) (start : Nat) : Schedule :=
  if n.changeovers = s.changeovers then
    { s with results := s.results.set l (Vector.ofFn fun i =>
        if start ≤ i.val ∧ (s.activeBank.get l).dueAt n.cycle i = true then squeezedResult n.cycle
        else (s.results.get l)[i]) }
  else s

/-- Every offset of a bank's lists lies below a period (R16, conditions 4 and 5). -/
def bankBelow (b : Bank) (period : Half) : Bool :=
  (List.finRange 32).all fun i =>
    (decide (b.a.count.toNat ≤ i.val) || decide (b.a.entries[i].offset.toNat < period.toNat)) &&
    (decide (b.b.count.toNat ≤ i.val) || decide (b.b.entries[i].offset.toNat < period.toNat))

/-! ## SCH_CHANGEOVERS (R45) -/

/-- SCH_CHANGEOVERS_LOW_READ: the low byte, with the high byte latched (R45). -/
def execSchChangeoversLowRead (s : State) : Next :=
  .next (s.access fun t =>
    (t.withSchedule { t.schedule with changeoversLatch := highByte t.schedule.changeovers }).withHost
      { t.host with data := some (lowByte t.schedule.changeovers) })

/-- SCH_STATUS as read (section 11.1). -/
def schStatus (s : Schedule) : Byte :=
  changeoverCode s.changeover ||| (byteOfBool s.active <<< 4) ||| (byteOfBool s.copy.isSome <<< 5)

end Sys2Proof.Machine
end

