-- ==== Sys2Proof/Machine/Stations.lean ====
section
/-! DEFINITION. The Station Table (chapter 5): slot-start reads, slot-end reports, attempt reports, and PARK, UNPARK and
CLEAR_COUNTERS. -/

namespace Sys2Proof.Machine

/-! ## Slot-start read (R84) -/

/-- The answer to a slot-start read. -/
inductive StartAnswer where
  | sendKind
  | sendResync
  | skip
deriving DecidableEq, Repr

/-- The record after a slot-start read, and its answer; `interval` is the line's probe interval. -/
def Station.startRead (r : Station) (interval : Byte) : Station × StartAnswer :=
  match r.health with
  | .online => (r, .sendKind)
  | .suspect => (r, .sendKind)
  | .unknown => (r, .sendResync)
  | .parked => (r, .skip)
  | .offline =>
    if r.probe - 1 = 0 then ({ r with probe := interval }, .sendResync)
    else ({ r with probe := r.probe - 1 }, .skip)

/-! ## Slot-end reports (R87) -/

/-- A slot-end report (R75, R87). -/
structure Report where
  kind : Byte
  outcome : Outcome
  /-- the final reply's status nibble, for OK and REFUSED -/
  nibble : Option (BitVec 4)
  cycle : Half
  index : Byte
  tag : Byte
  attempts : Nat
deriving DecidableEq, Repr

/-- The judgement of a report (section 5.4.1): OK is a success, REFUSED is one unless RESYNC was sent. -/
def Report.success (p : Report) : Bool :=
  p.outcome == .ok || (p.outcome == .refused && p.kind != kindResync)

/-- A RESYNC answered OK. -/
def Report.resynced (p : Report) : Bool := p.outcome == .ok && p.kind == kindResync

/-- A failure that reaches F makes the station OFFLINE with the countdown loaded (R88, R89). -/
def Station.fail (r : Station) (count : Byte) (below : Health) (threshold interval : Byte) : Station :=
  if threshold.toNat ≤ count.toNat then { r with health := .offline, failCount := count, probe := interval }
  else { r with health := below, failCount := count }

/-- The health update of a report (R88 to R91). -/
def Station.healthUpdate (r : Station) (p : Report) (threshold interval : Byte) : Station :=
  match r.health with
  | .unknown =>
    if p.resynced then { r with health := .online, failCount := 0 }
    else if p.success then { r with failCount := 0 }
    else r.fail (r.failCount + 1) .unknown threshold interval
  | .online =>
    if p.success then { r with failCount := 0 } else r.fail 1 .suspect threshold interval
  | .suspect =>
    if p.success then { r with health := .online, failCount := 0 }
    else r.fail (r.failCount + 1) .suspect threshold interval
  | .offline => if p.resynced then { r with health := .online, failCount := 0 } else r
  | .parked => r

/-- The send sequence after a report (R86): toggled by OK of a sequenced kind, 0 after OK of RESYNC. -/
def Report.sequence (p : Report) (s : Bool) : Bool :=
  if p.outcome = .ok then (if p.kind = kindResync then false else if isSequenced p.kind then !s else s) else s

/-- The record of the last exchange and the per-slot counters after a report (R94). -/
def Station.count (r : Station) (p : Report) : Station :=
  { r with
    lastOutcome := p.outcome
    lastOkCycle := if p.outcome = .ok then p.cycle else r.lastOkCycle
    okCount := if p.outcome = .ok then satInc r.okCount else r.okCount
    failureCount := if p.success then r.failureCount else satInc r.failureCount }

/-- The record after a report (R87). -/
def Station.report (r : Station) (p : Report) (threshold interval : Byte) : Station :=
  let r1 := { r with nibble := p.nibble.getD r.nibble }
  let r2 := r1.healthUpdate p threshold interval
  { r2 with s := p.sequence r.s }.count p

/-- Two small codes as one byte: the old value above, the new below (section 11.8). -/
def oldNew (old new : Byte) : Byte := (old <<< 4) ||| (new &&& 0x0F)

/-- The station events of a report (R92, R93): STATUS_CHANGE first, then the health event. -/
def stationEvents (l : Line) (address : Byte) (mask : EventMask) (old new : Station) (p : Report) : List Event :=
  (if new.nibble ≠ old.nibble ∧ mask.statusChange then
    [{ kind := .statusChange, line := some l, station := address,
       code := oldNew (old.nibble.setWidth 8) (new.nibble.setWidth 8), cycle := p.cycle, tag := p.tag,
       entryIndex := p.index, nibble := new.nibble, attempts := p.attempts }]
   else [])
  ++ (if new.health = .online ∧ (old.health = .unknown ∨ old.health = .offline) ∧ mask.stationOnline then
    [{ kind := .stationOnline, line := some l, station := address,
       code := oldNew (healthCode old.health) (healthCode new.health), cycle := p.cycle, tag := p.tag,
       entryIndex := p.index, nibble := new.nibble, attempts := p.attempts }]
   else if new.health = .offline ∧ old.health ≠ .offline ∧ mask.stationOffline then
    [{ kind := .stationOffline, line := some l, station := address,
       code := oldNew (healthCode old.health) (healthCode new.health), cycle := p.cycle, tag := p.tag,
       entryIndex := p.index, nibble := new.nibble, attempts := p.attempts }]
   else [])

/-- Apply a slot-end report to a station's record: the new state and the events it calls for. An address without a record changes
nothing (R82). -/
def applyReport (l : Line) (address : Byte) (p : Report) (s : State) : State × List Event :=
  match stationIx address with
  | none => (s, [])
  | some i =>
    let e := s.engine l
    let r := (s.station l i).report p e.failThreshold e.probeInterval
    (s.setStation l i r, stationEvents l address e.mask (s.station l i) r p)

/-- Hand the Station Table a slot-end report and append its events (R87). -/
def reportSlot (l : Line) (address : Byte) (p : Report) (s : State) : State :=
  (applyReport l address p s).1.appendAll ((applyReport l address p s).2.map .plain)

/-! ## Attempt reports (R95) -/

/-- Outcomes counted as corrupt. -/
def Outcome.corrupt (o : Outcome) : Bool :=
  match o with
  | .check | .broken | .length | .address | .sequence | .conflict => true
  | .none | .ok | .refused | .timeout | .squeezed | .skipped | .aborted | .notReady => false

/-- The record after an attempt report. -/
def Station.attempt (r : Station) (o : Outcome) : Station :=
  if o = .timeout then { r with timeoutCount := satInc r.timeoutCount }
  else if o.corrupt then { r with corruptCount := satInc r.corruptCount }
  else r

/-- Hand the Station Table an attempt report (R77, R95). -/
def reportAttempt (l : Line) (address : Byte) (o : Outcome) (s : State) : State :=
  match stationIx address with
  | none => s
  | some i => s.setStation l i ((s.station l i).attempt o)

/-- The send sequence of a station as it stands (R67, R86). -/
def sendSequence (l : Line) (address : Byte) (s : State) : Bool :=
  match stationIx address with
  | none => false
  | some i => (s.station l i).s

/-! ## Host commands (R96 to R98) -/

/-- A command of a station named by CMD_ARG0 (line) and CMD_ARG1 (address); values outside range are refused BAD_ARGUMENT. -/
def stationCommand (f : Station → Except CmdStatus Station) (s : State) : Except CmdStatus State :=
  match lineArg s.host.arg0, stationIx s.host.arg1 with
  | some l, some i =>
    match f (s.station l i) with
    | .ok r => .ok (s.setStation l i r)
    | .error c => .error c
  | _, _ => .error .badArgument

/-- PARK of a record (R96). -/
def parkStation (r : Station) : Except CmdStatus Station := .ok { r with health := .parked }

/-- UNPARK of a record (R97). -/
def unparkStation (r : Station) : Except CmdStatus Station :=
  if r.health = .parked then .ok { r with health := .unknown, failCount := 0 } else .error .wrongState

/-- CLEAR_COUNTERS of a record (R98). -/
def clearStation (r : Station) : Except CmdStatus Station :=
  .ok { r with okCount := 0, failureCount := 0, timeoutCount := 0, corruptCount := 0 }

/-- PARK (R96). -/
def execPark (s : State) : Next := .next (commandAccess 0x28 (stationCommand parkStation) s)

/-- UNPARK (R97). -/
def execUnpark (s : State) : Next := .next (commandAccess 0x29 (stationCommand unparkStation) s)

/-- CLEAR_COUNTERS (R98). -/
def execClearCounters (s : State) : Next := .next (commandAccess 0x2A (stationCommand clearStation) s)

end Sys2Proof.Machine
end

