-- ==== Sys2Proof/Machine/Attempts.lean ====
section
/-! DEFINITION. What a line engine does at the begin and at the end of an attempt, of a slot and of an acyclic request (chapter 4,
sections 4.5 and 4.6, and section 8.4). -/

namespace Sys2Proof.Machine

/-! ## Time remaining (R60) -/

/-- The time remaining of a slot: none once the engine has taken a later notice. -/
def timeRemaining (s : State) (c : Slot) : Nat :=
  if c.noticeHeld then c.budgetEnd.toNat - s.timer.value.toNat else 0

/-! ## What an attempt carries -/

/-- What the attempts of a slot or of an acyclic request carry, and the limits they run under (R67, R73, R135). -/
structure Exchange where
  station : Byte
  kind : Byte
  expected : Byte
  replyWindow : Half
  reservation : Half
  retryLimit : Byte
  payload : List Byte
deriving DecidableEq, Repr

/-- An OPEN slot (R63). -/
def Slot.isOpen (c : Slot) : Bool := c.entry.kind == kindOpen

/-- The kind a slot sends: RESYNC when it is substituted (R64). -/
def Slot.kindSent (c : Slot) : Byte := if c.resync then kindResync else c.entry.kind

/-- A slot's exchange: the first request-length bytes of its snapshot, if it took one (R65, R124). -/
def Slot.exchange (c : Slot) (snapshot : Option Snapshot) : Exchange :=
  { station := c.entry.station, kind := c.kindSent, expected := requiredLength c.kindSent c.entry.replyLength,
    replyWindow := c.entry.replyWindow, reservation := c.entry.reservation, retryLimit := c.entry.retryLimit,
    payload := match snapshot with
      | some n => n.bytes.toList.take c.entry.requestLength.toNat
      | none => [] }

/-- An acyclic request's exchange: the first request-length bytes of its descriptor (R135). -/
def Request.exchange (q : Request) : Exchange :=
  { station := q.desc.station, kind := q.desc.kind, expected := requiredLength q.desc.kind q.desc.replyLength,
    replyWindow := q.desc.replyWindow, reservation := q.desc.reservation, retryLimit := q.desc.retryLimit,
    payload := q.desc.payload.toList.take q.desc.requestLength.toNat }

/-- The exchange under way: the acyclic request in progress, else the slot. -/
def Engine.exchange (e : Engine) : Option Exchange :=
  match e.request with
  | some q => some q.exchange
  | none => e.slot.map (·.exchange e.snapshot)

/-- Attempts used so far by the request in progress, else by the slot. -/
def Engine.attempts (e : Engine) : Nat :=
  match e.request with
  | some q => q.attempts
  | none => (e.slot.map (·.attempts)).getD 0

/-- One more attempt begun (R67). -/
def Engine.countAttempt (e : Engine) : Engine :=
  match e.request with
  | some q => { e with request := some { q with attempts := q.attempts + 1 } }
  | none => { e with slot := e.slot.map fun c => { c with attempts := c.attempts + 1 } }

/-- A character in reception whose start edge came before what begins now: it belongs to no window or transmission still to come (R8, R13).
On the clock an edge of the very moment at which a head's start bit begins is given to that head (claimEdge, lineAct; log 9). -/
def Receiver.forget (r : Receiver) : Receiver :=
  { r with char := r.char.map fun p => { p with place := .elsewhere } }

/-- The engine entering TRANSMIT with the attempt of an exchange (R67); `seqBit` is the head's sequence bit. -/
def Engine.transmit (e : Engine) (x : Exchange) (seqBit : Bool) : Engine :=
  let frame := requestFrame x.station x.kind seqBit x.payload
  { e.countAttempt with
    state := .transmit
    attempt := some
      { station := x.station, kind := x.kind, seqBit := seqBit, expected := x.expected, replyWindow := x.replyWindow,
        frame := frame, sent := 0, echo := none, windowOver := false, arrival := none, reply := none, judged := none }
    failed := none
    tx := some { byte := frame.headD 0, head := true, clock := 0 }
    rx := e.rx.forget
    elapsed := 0 }

/-- Begin an attempt of the exchange under way (R67): a sequenced kind carries the station's S, every other kind 0 (R7). -/
def beginAttempt (l : Line) (s : State) : State :=
  match (s.engine l).exchange with
  | none => s
  | some x =>
    s.setEngine l ((s.engine l).transmit x (isSequenced x.kind && sendSequence l x.station s))

/-! ## Ends -/

/-- The buffer with the header of a kept reply written (R101, section 6.1). -/
def Buffer.withHeader (b : Buffer) (l : Line) (a : Attempt) (r : Reply) (c : Capture) (label : Byte) : Buffer :=
  { b with line := l, station := a.station, kind := a.kind, nibble := r.nibble, seqBit := r.seqBit, length := r.length,
           cycle := c.cycle, arrival := c.value, label := label }

/-- The reply an attempt has received, with the capture at its head. -/
def Attempt.kept (a : Attempt) : Option (Reply × Capture) :=
  match a.reply, a.arrival with
  | some r, some c => some (r, c)
  | _, _ => none

/-- Write the header of the buffer held for a reply that is kept (R74, R136). -/
def writeHeader (l : Line) (b : Fin 72) (a : Attempt) (label : Byte) (s : State) : State :=
  match a.kept with
  | some (r, c) => s.setBuffer b (s.pool.buffers[b].withHeader l a r c label)
  | none => s

/-- The status nibble of a final reply: for OK and REFUSED only (R75). -/
def finalNibble (o : Outcome) (a : Option Attempt) : Option (BitVec 4) :=
  if o = .ok ∨ o = .refused then a.bind fun x => x.reply.map (·.nibble) else none

/-- The result record of a slot (R76). -/
def Slot.result (c : Slot) (o : Outcome) (generation : Byte) : SlotResult :=
  { outcome := o, attempts := c.attempts, resync := c.resync, afterBoundary := c.afterBoundary,
    startedLate := c.startedLate, arrival := c.arrival, cycle := c.cycle, generation := generation,
    lateness := c.lateness }

/-- The generation a slot sends: its snapshot's, 0 without one (R65). -/
def Engine.generation (e : Engine) : Byte := (e.snapshot.map (·.generation)).getD 0

/-- Hand the Schedule Store a slot's result write and leave the slot (R76). -/
def leaveSlot (l : Line) (o : Outcome) (s : State) : State :=
  match (s.engine l).slot with
  | none => s
  | some c =>
    (s.withSchedule (s.schedule.writeResult l c.index c.changeovers (c.result o (s.engine l).generation))).setEngine l
      { s.engine l with slot := none, snapshot := none }

/-- The engine without a buffer. -/
def dropHeld (l : Line) (s : State) : State := s.setEngine l { s.engine l with held := none }

/-- Return the buffer in the attempt context, if there is one (R75). -/
def returnHeld (l : Line) (s : State) : State := dropHeld l (s.giveBuffer (s.engine l).held)

/-- The buffer of an OK slot: its header is written and it is published to the entry's mailbox (R74). -/
def publishHeld (l : Line) (c : Slot) (a : Attempt) (s : State) : State :=
  match (s.engine l).held, mailboxArg c.entry.mailbox with
  | some b, some m => dropHeld l (publishInto m b (writeHeader l b a c.entry.label s))
  | _, _ => returnHeld l s

/-- The report of a slot (R75, R87). -/
def Slot.report (c : Slot) (o : Outcome) (a : Option Attempt) : Report :=
  { kind := c.kindSent, outcome := o, nibble := finalNibble o a, cycle := c.cycle,
    index := BitVec.ofNat 8 c.index.val, tag := 0, attempts := c.attempts }

/-- The end of a slot that sent traffic (R74, R75): the buffer is published or returned, a station slot reports, and the result is
written. `a` is the attempt that ended OK or REFUSED. -/
def finishSlot (l : Line) (o : Outcome) (a : Option Attempt) (s : State) : State :=
  match (s.engine l).slot with
  | none => s
  | some c =>
    let s1 := match o, a with
      | .ok, some x => publishHeld l c x s
      | _, _ => returnHeld l s
    let s2 := if c.kindSent = kindBroadcast then s1 else reportSlot l c.entry.station (c.report o a) s1
    leaveSlot l o s2

/-- The ACYCLIC_DONE event of a request (R136); `b` is the attached buffer with its length. -/
def doneEvent (l : Line) (q : Request) (o : Outcome) (nibble : Option (BitVec 4)) (b : Option (Fin 72 × Byte)) : Event :=
  { kind := .acyclicDone, line := some l, station := q.desc.station, code := outcomeCode o, cycle := q.cycle,
    tag := q.desc.tag, entryIndex := BitVec.ofNat 8 q.index.val,
    bufferLength := (b.map (·.2)).getD 0, nibble := nibble.getD 0, attempts := q.attempts, buffer := b.map (·.1) }

/-- The report of an acyclic request (R137). -/
def Request.report (q : Request) (o : Outcome) (a : Option Attempt) : Report :=
  { kind := q.desc.kind, outcome := o, nibble := finalNibble o a, cycle := q.cycle, index := 255, tag := q.desc.tag,
    attempts := q.attempts }

/-- The buffer that goes with a completion: the held one with its reply's length, when the request ended OK or REFUSED (R136). -/
def keptBuffer (e : Engine) (o : Outcome) (a : Option Attempt) : Option (Fin 72 × Byte) :=
  if o = .ok ∨ o = .refused then
    match e.held, a.bind Attempt.kept with
    | some b, some (r, _) => some (b, r.length)
    | _, _ => none
  else none

/-- The engine's request is done; an OPEN slot with no time remaining is carried to the end of the frame gap (R63, log 11). -/
def leaveRequest (l : Line) (s : State) : State :=
  let e := s.engine l
  s.setEngine l { e with
    request := none
    held := none
    slot := e.slot.map fun c => { c with carried := decide (timeRemaining s c = 0) } }

/-- The completion of the request in progress (R136): the buffer goes to the event or back to the pool, the reservation is filled,
and the Station Table is given the report unless the outcome is NOT_READY or ABORTED. The event and the station's own events may
be appended in any order (R136, log 5). -/
def completeRequest (l : Line) (o : Outcome) (a : Option Attempt) (s : State) : State :=
  match (s.engine l).request with
  | none => s
  | some q =>
    let kept := keptBuffer (s.engine l) o a
    let s1 := match kept, a with
      | some (b, _), some x => writeHeader l b x q.desc.tag s
      | _, _ => s.giveBuffer (s.engine l).held
    let reported :=
      if o = .notReady ∨ o = .aborted then (s1, []) else applyReport l q.desc.station (q.report o a) s1
    let appends :=
      anyPlace reported.1 (.reserved l (doneEvent l q o (finalNibble o a) kept)) (reported.2.map .plain)
    leaveRequest l (appends.2.appendAll appends.1)

/-- The attempt in flight ends: an attempt report for a kind that awaits a reply (R77), then GAP (R72). OK and REFUSED end the slot
or the request at once (R74, R75); any other outcome waits for the retry decision (R73). -/
def endAttempt (l : Line) (o : Outcome) (s : State) : State :=
  match (s.engine l).attempt with
  | none => s
  | some a =>
    let s1 := if a.kind = kindBroadcast then s else reportAttempt l a.station o s
    let ended := decide (o = .ok ∨ o = .refused)
    let s2 := s1.setEngine l { s1.engine l with
      state := .gap, attempt := none, tx := none, elapsed := 0, failed := if ended then none else some o }
    if ended then
      match (s2.engine l).request with
      | some _ => completeRequest l o (some a) s2
      | none => finishSlot l o (some a) s2
    else s2

end Sys2Proof.Machine
end

