-- ==== Sys2Proof/Machine/Acyclic.lean ====
section
/-! DEFINITION. Acyclic requests (chapter 8): posting, starting in an OPEN slot, eligibility, cancelling. -/

namespace Sys2Proof.Machine

/-! ## POST (R129) -/

/-- The descriptor passes the checks of POST. -/
def Descriptor.valid (d : Descriptor) : Bool :=
  !(d.kind == 0 || d.kind == 7 || decide (15 < d.kind.toNat))
  && !((d.kind == kindBroadcast && d.station != 63) || (d.station == 63 && d.kind != kindBroadcast))
  && !(d.station == 0 || decide (63 < d.station.toNat))
  && decide (d.requestLength.toNat ≤ 32)
  && !(isBare d.kind && d.requestLength != 0)
  && (decide (d.replyLength.toNat ≤ 32) || d.replyLength == 255)
  && decide (d.retryLimit.toNat ≤ 3)
  && d.reservation != 0
  && (d.replyWindow != 0 && decide (d.replyWindow.toNat ≤ 1023))
  && decide (d.allowOffline.toNat ≤ 1)

/-- POST (R129): the first of the refusals that applies, else a copy of the staging descriptor joins the tail. -/
def postRequest (s : State) : Except CmdStatus State :=
  match lineArg s.host.arg0 with
  | none => .error .badArgument
  | some l =>
    let q := s.acyclic.get l
    if Config.acyclicRoom ≤ q.queue.length then .error .full
    else if !q.staging.valid then .error .badArgument
    else .ok (s.setAcyclic l { q with queue := q.queue ++ [q.staging] })

/-- POST (R129). -/
def execPost (s : State) : Next := .next (commandAccess 0x50 postRequest s)

/-! ## CANCEL (R138) -/

/-- CANCEL: the oldest queued request with the tag is removed; else the request in progress is too late to cancel. -/
def cancelRequest (s : State) : Except CmdStatus State :=
  match lineArg s.host.arg0 with
  | none => .error .badArgument
  | some l =>
    let q := s.acyclic.get l
    if q.queue.any (·.tag == s.host.arg1) then
      .ok (s.setAcyclic l { q with queue := q.queue.eraseP (·.tag == s.host.arg1) })
    else if (s.engine l).request.any (·.desc.tag == s.host.arg1) then .error .tooLate
    else .error .notFound

/-- CANCEL (R138). -/
def execCancel (s : State) : Next := .next (commandAccess 0x51 cancelRequest s)

/-! ## Starting a request (R131 to R135) -/

/-- A request of a kind may be sent to a station in a health state (R134). -/
def eligible (k : Byte) (allowOffline : Bool) (h : Health) : Bool :=
  match h with
  | .online => true
  | .suspect => true
  | .unknown => isBare k
  | .offline => isBare k && allowOffline
  | .parked => false

/-- The head request of a line may start now (R131): WAIT in an OPEN slot with no request in progress, time for it, and room for its
completion. -/
def startable (l : Line) (s : State) : Option (Descriptor × Slot) :=
  let e := s.engine l
  match e.slot, (s.acyclic.get l).queue with
  | some c, d :: _ =>
    if e.state = .wait ∧ c.isOpen ∧ e.request = none ∧ d.reservation.toNat ≤ timeRemaining s c ∧ s.events.hasRoom then
      some (d, c)
    else none
  | _, _ => none

/-- A request in progress that awaits a reply takes a buffer (R135). -/
def takeForRequest (l : Line) (q : Request) (s : State) : State :=
  if q.desc.kind = kindBroadcast then s
  else takeBuffer l { station := q.desc.station, cycle := q.cycle, index := 255, tag := q.desc.tag } s

/-- The started request is sent, or completes NOT_READY (R134). A BROADCAST makes no acyclic start read (R85). -/
def requestEligible (l : Line) (d : Descriptor) (s : State) : Bool :=
  match stationIx d.station with
  | none => true
  | some i => eligible d.kind (d.allowOffline == 1) (s.station l i).health

/-- The head request of a line leaves the queue and is in progress, its reservation held (R133, steps 1 to 3). -/
def startHead (l : Line) (d : Descriptor) (c : Slot) (s : State) : State :=
  let s1 := s.withEvents (s.events.reserve l)
  let s2 := s1.setAcyclic l { s1.acyclic.get l with queue := (s1.acyclic.get l).queue.tail }
  s2.setEngine l { s2.engine l with request := some { desc := d, cycle := c.cycle, index := c.index, attempts := 0 } }

/-- ACYCLIC_START of a line: the head request starts if it can (R133). -/
def startAcyclic (l : Line) (s : State) : State :=
  match startable l s with
  | none => s
  | some (d, c) =>
    let t := startHead l d c s
    if requestEligible l d t then
      beginAttempt l (takeForRequest l { desc := d, cycle := c.cycle, index := c.index, attempts := 0 } t)
    else completeRequest l .notReady none t

/-- ACYCLIC_START (R131 to R135). -/
def execAcyclicStart (l : Line) (s : State) : Next := .next (s.event (startAcyclic l))

end Sys2Proof.Machine
end

