-- ==== Sys2Proof/Machine/Slots.lean ====
section
/-! DEFINITION. The slot walk of a line engine (chapter 4): entry reads, slot begin, notices, OPEN slots, frame gaps and retries, and
LINE_ENABLE and LINE_DISABLE. -/

namespace Sys2Proof.Machine

/-! ## The walk (R61) -/

/-- The entry read of an engine that waits with a notice and no slot (R61). -/
def readNext (l : Line) (s : State) : State :=
  let e := s.engine l
  match e.notice with
  | some n =>
    if e.state = .wait ∧ e.slot = none ∧ e.next = none then
      s.setEngine l { e with next := s.schedule.entryRead s.timer.period l n e.walk }
    else s
  | none => s

/-- The slot context of an entry that begins now (R61). -/
def newSlot (s : State) (n : Notice) (r : ReadEntry) : Slot :=
  { index := r.index, entry := r.entry, budgetEnd := r.budgetEnd, cycle := n.cycle, changeovers := n.changeovers,
    lateness := satByte (s.timer.value.toNat - r.entry.offset.toNat),
    startedLate := decide (r.entry.offset.toNat < s.timer.value.toNat), attempts := 0, resync := false,
    afterBoundary := false, arrival := 0, noticeHeld := true, carried := false }

/-- The snapshot of a slot that sends outputs (R65). -/
def takeSnapshot (l : Line) (c : Slot) (s : State) : State :=
  if sendsOutputs c.kindSent then
    s.setEngine l { s.engine l with snapshot := some (s.images.images[Fin.ofNat 64 c.entry.image.toNat]).snapshot }
  else s

/-- The buffer take of a slot (R66): its entry names a mailbox, and it awaits a reply that is to be kept. -/
def takeForSlot (l : Line) (c : Slot) (s : State) : State :=
  if c.entry.mailbox.toNat < 48 ∧ c.kindSent ≠ kindBroadcast ∧ c.resync = false then
    takeBuffer l { station := c.entry.station, cycle := c.cycle, index := BitVec.ofNat 8 c.index.val, tag := 0 } s
  else s

/-- The slot's snapshot, buffer and first attempt (R65 to R67). -/
def sendSlot (l : Line) (c : Slot) (s : State) : State := beginAttempt l (takeForSlot l c (takeSnapshot l c s))

/-- The slot-start read and what follows from it (R64, R84). -/
def startStation (l : Line) (c : Slot) (s : State) : State :=
  match stationIx c.entry.station with
  | none => sendSlot l c s
  | some i =>
    let read := (s.station l i).startRead (s.engine l).probeInterval
    let s1 := s.setStation l i read.1
    match read.2 with
    | .skip => leaveSlot l .skipped s1
    | .sendKind => sendSlot l c s1
    | .sendResync =>
      let c' := { c with resync := decide (c.entry.kind ≠ kindResync) }
      sendSlot l c' (s1.setEngine l { s1.engine l with slot := some c' })

/-- The engine with a slot begun: the kept entry is used up and the walk position passes it (R61). -/
def Engine.enterSlot (e : Engine) (c : Slot) : Engine :=
  { e with next := none, walk := c.index.val + 1, slot := some c }

/-- A slot begins (R61 to R66): squeezed at once when its time remaining is below its reservation. -/
def beginSlot (l : Line) (n : Notice) (r : ReadEntry) (s : State) : State :=
  let c := newSlot s n r
  let t := s.setEngine l ((s.engine l).enterSlot c)
  if timeRemaining t c < r.entry.reservation.toNat then leaveSlot l .squeezed t
  else if r.entry.kind = kindOpen then t
  else if r.entry.kind = kindBroadcast then sendSlot l c t
  else startStation l c t

/-- Read entries and begin slots for as long as the value stands at or past their offsets; slots that end at once are followed by the
next entry at the same moment (R61, R62). Each round uses up an entry of the list, so 33 rounds suffice. -/
def walkOn (l : Line) : Nat → State → State
  | 0, s => s
  | fuel + 1, s =>
    let t := readNext l s
    match (t.engine l).notice, (t.engine l).next with
    | some n, some r =>
      if r.entry.offset.toNat ≤ t.timer.value.toNat then walkOn l fuel (beginSlot l n r t) else t
    | _, _ => t

/-- Rounds of a walk at one moment: 32 entries, and the read that finds the list finished. -/
def walkRounds : Nat := 33

/-- SLOT_BEGIN of a line: an engine that waits with a notice and no slot begins the slot its kept entry has reached (R61). -/
def slotBegin (l : Line) (s : State) : State :=
  let e := s.engine l
  if e.state = .wait ∧ e.slot = none then walkOn l walkRounds s else s

/-- SLOT_BEGIN (R61 to R66). -/
def execSlotBegin (l : Line) (s : State) : Next := .next (s.event (slotBegin l))

/-! ## OPEN slots (R63) -/

/-- An OPEN slot ends now: no request in progress, no time remaining, and no frame gap of a request that carried it (log 11). -/
def openSlotOver (l : Line) (s : State) : Bool :=
  match (s.engine l).slot with
  | some c =>
    c.isOpen && (s.engine l).request.isNone && !c.carried && decide (timeRemaining s c = 0)
      && ((s.engine l).state == .wait || (s.engine l).state == .gap)
  | none => false

/-- OPEN_SLOT_END of a line: the slot ends with outcome OK (R63), and an engine in WAIT reads its next entry (R61); a slot that this
entry begins is a step of its own (95_what_each_step_holds.md). -/
def openSlotEnd (l : Line) (s : State) : State :=
  if openSlotOver l s then readNext l (leaveSlot l .ok s) else s

/-- OPEN_SLOT_END (R63). -/
def execOpenSlotEnd (l : Line) (s : State) : Next := .next (s.event (openSlotEnd l))

/-! ## Frame gap and retry (R72, R73) -/

/-- The engine in WAIT after a frame gap with nothing to decide: a carried OPEN slot ends, and the walk goes on (R63, R72). -/
def afterGap (l : Line) (s : State) : State :=
  match (s.engine l).slot with
  | some c =>
    if c.isOpen ∧ timeRemaining s c = 0 then slotBegin l (leaveSlot l .ok s)
    else s.setEngine l { s.engine l with slot := some { c with carried := false } }
  | none => slotBegin l s

/-- Another attempt is made: attempts are left, and the time remaining is at least the reservation (R73). -/
def retryAllowed (l : Line) (s : State) : Bool :=
  match (s.engine l).exchange, (s.engine l).slot with
  | some x, some c =>
    decide ((s.engine l).attempts ≤ x.retryLimit.toNat) && decide (x.reservation.toNat ≤ timeRemaining s c)
  | _, _ => false

/-- The retry decision after a failed attempt (R73). -/
def retryDecision (l : Line) (o : Outcome) (s : State) : State :=
  if retryAllowed l s then beginAttempt l s
  else match (s.engine l).request with
    | some _ => afterGap l (completeRequest l o none s)
    | none => slotBegin l (finishSlot l o none s)

/-- FRAME_GAP_END of a line: back to WAIT, then the retry decision or the next step (R72). -/
def frameGapEnd (l : Line) (s : State) : State :=
  let e := s.engine l
  if e.state = .gap then
    let t := s.setEngine l { e with state := .wait, failed := none }
    match e.failed with
    | some o => retryDecision l o t
    | none => afterGap l t
  else s

/-- FRAME_GAP_END (R72, R73). -/
def execFrameGapEnd (l : Line) (s : State) : Next := .next (s.event (frameGapEnd l))

/-! ## Notices (R58, R59, R79) -/

/-- The engine disregards notices: OFF, or finishing a character after LINE_DISABLE (R52, R80). -/
def Engine.deaf (e : Engine) : Bool := e.state == .off || e.disabling

/-- An attempt is in flight (R79). -/
def Engine.inFlight (e : Engine) : Bool :=
  e.state == .transmit || e.state == .await || e.state == .receive || e.state == .quiet

/-- CYCLE_OVERRUN of a notice that finds an attempt in flight, when the line's mask admits it (R79); code 0 for a new-cycle notice, 1
for cycles ended. -/
def overrunEvents (l : Line) (code : Byte) (e : Engine) : List Event :=
  match e.attempt, e.slot with
  | some a, some c =>
    if e.inFlight ∧ e.deaf = false ∧ e.mask.cycleOverrun then
      [{ kind := .cycleOverrun, line := some l, station := a.station, code := code, cycle := c.cycle,
         entryIndex := BitVec.ofNat 8 c.index.val, tag := (e.request.map (·.desc.tag)).getD 0 }]
    else []
  | _, _ => []

/-- The unbegun due entries of the held notice's walk end SQUEEZED (R58, step 1). -/
def squeezeUnbegun (l : Line) (s : State) : State :=
  match (s.engine l).notice with
  | some n => s.withSchedule (s.schedule.squeezeFrom l n (s.engine l).walk)
  | none => s

/-- The engine with a notice taken: the walk starts over, and a slot in progress has no time remaining from now on (R58, R60). -/
def Engine.takeNotice (e : Engine) (n : Option Notice) : Engine :=
  { e with
    notice := n
    walk := 0
    next := none
    slot := e.slot.map fun c => { c with noticeHeld := false }
    overruns := if e.inFlight then satInc e.overruns else e.overruns }

/-- A notice reaching an engine: a new-cycle notice (R58), or cycles ended (R59) with `none`. An OPEN slot with no request in
progress ends at it (R63). -/
def takeNotice (l : Line) (n : Option Notice) (s : State) : State :=
  if (s.engine l).deaf then s
  else
    let t := squeezeUnbegun l s
    let t := t.setEngine l ((t.engine l).takeNotice n)
    readNext l (if openSlotOver l t then leaveSlot l .ok t else t)

/-! ## LINE_ENABLE and LINE_DISABLE (R57, R80) -/

/-- The command of a line named in CMD_ARG0; any other argument is refused BAD_ARGUMENT. -/
def lineCommand (f : Line → State → Except CmdStatus State) (s : State) : Except CmdStatus State :=
  match lineArg s.host.arg0 with
  | some l => f l s
  | none => .error .badArgument

/-- The engine holding nothing: no notice, no slot or attempt context, no request (R57, R80). -/
def Engine.emptied (e : Engine) : Engine :=
  { e with notice := none, walk := 0, next := none, slot := none, attempt := none, held := none, snapshot := none,
           request := none, failed := none }

/-- The engine OFF, its receiver handing nothing on (R3, R80). -/
def Engine.turnOff (e : Engine) : Engine :=
  { e.emptied with state := .off, disabling := false, tx := none, rx := { prev := none, char := none }, elapsed := 0,
                   idle := 0, sampleClock := 0 }

/-- LINE_ENABLE of a line (R57). -/
def enableLine (l : Line) (s : State) : Except CmdStatus State :=
  if (s.engine l).state = .off then .ok (s.setEngine l { (s.engine l).turnOff with state := .wait })
  else .error .wrongState

/-- LINE_ENABLE (R57). -/
def execLineEnable (s : State) : Next := .next (commandAccess 0x20 (lineCommand enableLine) s)

/-- The teardown of what an engine holds (R80): the request in progress and the slot end ABORTED, the buffer is returned. -/
def tearDown (l : Line) (s : State) : State :=
  let t := completeRequest l .aborted none s
  leaveSlot l .aborted (returnHeld l t)

/-- LINE_DISABLE of a line (R80): in TRANSMIT the character being sent is finished first. -/
def disableLine (l : Line) (s : State) : Except CmdStatus State :=
  let e := s.engine l
  if e.state = .off then .error .wrongState
  else if e.disabling then .ok s
  else
    let t := tearDown l s
    let e := t.engine l
    if e.state = .transmit then .ok (t.setEngine l { e.emptied with disabling := true })
    else .ok (t.setEngine l e.turnOff)

/-- LINE_DISABLE (R80). -/
def execLineDisable (s : State) : Next := .next (commandAccess 0x21 (lineCommand disableLine) s)

end Sys2Proof.Machine
end

