-- ==== Sys2Proof/Machine/Receive.lean ====
section
/-! DEFINITION. The traffic of a line: characters sent and their echoes, start edges, received characters by engine state, windows,
gaps and the quiet wait (chapter 1; chapter 4, sections 4.5 and 4.7). -/

namespace Sys2Proof.Machine

/-! ## Time captured (R30) -/

/-- A cycle is running (R14). -/
def Timer.cycleRunning (t : Timer) : Bool := t.state != .stopped && t.sync != .seeking

/-- The value and the cycle count as one pair; while no cycle runs the value stands at 0 and the capture is marked (R30). -/
def Timer.capture (t : Timer) : Capture :=
  { cycle := t.cycleCount, value := if t.cycleRunning then t.value else 0, stopped := !t.cycleRunning }

/-! ## Sending (R2, R13, R67, R68) -/

/-- The echo of the character being sent is missing or differs from it (R13). -/
def echoFails (a : Attempt) : Bool :=
  match a.echo with
  | none => true
  | some c => c.framing || c.byte != a.frame.getD a.sent 0 || c.head != decide (a.sent = 0)

/-- DE is released after the last stop bit: a BROADCAST ends OK (R68), every other attempt enters AWAIT and its reply window
begins (R67, R8). -/
def frameSent (l : Line) (a : Attempt) (s : State) : State :=
  if a.kind = kindBroadcast then endAttempt l .ok s
  else s.setEngine l { s.engine l with
    state := .await, tx := none, elapsed := 0, attempt := some { a with sent := a.sent + 1, echo := none } }

/-- The next character of the frame begins at the end of the stop bit before it (R2). -/
def nextCharacter (l : Line) (a : Attempt) (s : State) : State :=
  s.setEngine l { s.engine l with
    attempt := some { a with sent := a.sent + 1, echo := none }
    tx := some { byte := a.frame.getD (a.sent + 1) 0, head := false, clock := 0 } }

/-- CHARACTER_TRANSMITTED of a line: the stop bit of the character being sent has ended. -/
def characterSent (l : Line) (s : State) : State :=
  let e := s.engine l
  if e.state ≠ .transmit then s
  else if e.disabling then s.setEngine l e.turnOff
  else match e.attempt with
    | none => s
    | some a =>
      if e.echoCheck ∧ echoFails a then endAttempt l .conflict s
      else if a.sent + 1 < a.frame.length then nextCharacter l a s
      else frameSent l a s

/-- CHARACTER_TRANSMITTED (R2, R13, R67, R68, R80). -/
def execCharacterTransmitted (l : Line) (s : State) : Next := .next (s.event (characterSent l))

/-! ## Start edges (R3, R69) -/

/-- Where a start edge of now falls (R8, R13). -/
def Engine.edgePlace (e : Engine) : EdgePlace :=
  match e.state, e.attempt with
  | .transmit, some a => .sending a.sent
  | .await, some a => if a.windowOver then .elsewhere else .window
  | _, _ => .elsewhere

/-- START_EDGE of a line: a sample at 0 after one at 1 begins a character, and the timer pair is captured. None is seen while the line
is OFF, while a character is in reception, or while the line has been at 0 since the last sample (R3). -/
def startEdge (l : Line) (s : State) : State :=
  let e := s.engine l
  if e.state = .off ∨ e.rx.char.isSome ∨ e.rx.prev = some false then s
  else s.setEngine l { e with
    idle := 0
    rx := { prev := some false
            char := some { place := e.edgePlace, capture := s.timer.capture, count := 0, votes := [], bits := [] } } }

/-- START_EDGE (R3, R69). -/
def execStartEdge (l : Line) (s : State) : Next := .next (s.event (startEdge l))

/-- RX_RETURNED_TO_1 of a line: a sample at 1 after the line was held at 0; the idle span of the quiet wait counts from the last
0 (R3, R11). -/
def rxReturned (l : Line) (s : State) : State :=
  let e := s.engine l
  if e.state = .off then s else s.setEngine l { e with rx := { e.rx with prev := some true } }

/-- RX_RETURNED_TO_1 (R3, R11). -/
def execRxReturnedTo1 (l : Line) (s : State) : Next := .next (s.event (rxReturned l))

/-! ## Outcomes of an attempt's reply -/

/-- A stray character (R78). -/
def countStray (l : Line) (s : State) : State :=
  s.setEngine l { s.engine l with strays := satInc (s.engine l).strays }

/-- ADDRESS, BROKEN or LENGTH: the quiet wait begins (R71). -/
def enterQuiet (l : Line) (o : Outcome) (a : Attempt) (s : State) : State :=
  s.setEngine l { s.engine l with state := .quiet, elapsed := 0, attempt := some { a with judged := some o } }

/-- A payload byte goes into the buffer at its position, if the engine holds one (R70, R101). -/
def storePayload (l : Line) (store : Option (Nat × Byte)) (s : State) : State :=
  match store, (s.engine l).held with
  | some (k, v), some b =>
    s.setBuffer b { s.pool.buffers[b] with payload := s.pool.buffers[b].payload.setIfInBounds k v }
  | _, _ => s

/-- What follows a character's judgement (R70). -/
def applyJudgement (l : Line) (a : Attempt) (j : Judgement) (s : State) : State :=
  match j with
  | .more r store =>
    storePayload l store (s.setEngine l { s.engine l with state := .receive, elapsed := 0, attempt := some { a with reply := some r } })
  | .failed o => enterQuiet l o a s
  | .whole o r => endAttempt l o (s.setEngine l { s.engine l with attempt := some { a with reply := some r } })

/-- The arrival of a reply's head (R69): kept in the attempt, and in the slot's flags and arrival offset unless the attempt is an
acyclic request's. -/
def Engine.arrive (e : Engine) (p : Capture) : Engine :=
  { e with
    state := .receive
    attempt := e.attempt.map fun a => { a with arrival := some p, reply := none }
    slot := if e.request.isSome then e.slot
      else e.slot.map fun c => { c with
        arrival := p.value
        afterBoundary := decide (p.cycle ≠ c.cycle) || p.stopped } }

/-- A reply head found in the window: RECEIVE, and its judgement (R8, R69, R9). -/
def headFound (l : Line) (p : Capture) (c : RxChar) (s : State) : State :=
  let t := s.setEngine l ((s.engine l).arrive p)
  match (t.engine l).attempt with
  | some a => applyJudgement l a (judgeHead a c) t
  | none => t

/-- A character completed in AWAIT (R8, R69). -/
def awaitCharacter (l : Line) (p : RxProgress) (c : RxChar) (a : Attempt) (s : State) : State :=
  if c.head ∧ p.place = .window then headFound l p.capture c s
  else if a.windowOver then endAttempt l .timeout (countStray l s)
  else countStray l s

/-- A character completed in RECEIVE: the next of the reply (R9, R10, R70). -/
def replyCharacter (l : Line) (c : RxChar) (a : Attempt) (s : State) : State :=
  match a.reply with
  | some r => applyJudgement l a (judgeNext a r c) s
  | none => s

/-- A character completed in TRANSMIT: the echo of the character being sent when its start edge lies in it, the first such only;
any other is discarded (R13). -/
def echoCharacter (l : Line) (p : RxProgress) (c : RxChar) (a : Attempt) (s : State) : State :=
  if (s.engine l).echoCheck ∧ p.place = .sending a.sent ∧ a.echo = none then
    s.setEngine l { s.engine l with attempt := some { a with echo := some c } }
  else s

/-- The handling of a completed character by engine state (section 4.2, R78). -/
def handleCharacter (l : Line) (p : RxProgress) (c : RxChar) (s : State) : State :=
  match (s.engine l).state, (s.engine l).attempt with
  | .wait, _ => countStray l s
  | .gap, _ => countStray l s
  | .transmit, some a => echoCharacter l p c a s
  | .await, some a => awaitCharacter l p c a s
  | .receive, some a => replyCharacter l c a s
  | _, _ => s

/-- The receiver has completed the character in reception: it hands it on and looks for the next falling edge (R3). The line is at 1
after a good stop bit, and must return to 1 after a framing error. -/
def completeCharacter (l : Line) (c : RxChar) (s : State) : State :=
  match (s.engine l).rx.char with
  | none => s
  | some p =>
    handleCharacter l p c
      (s.setEngine l { s.engine l with rx := { prev := some (!c.framing), char := none }, idle := 0 })

/-- RECEIVED_CHARACTER (R3, R9, R10, R78): a character whose start edge was not given by a START_EDGE begins and completes here
(log 9). -/
def execReceivedCharacter (l : Line) (byte : Byte) (head framing : Bool) (s : State) : Next :=
  .next (s.event fun t =>
    completeCharacter l { byte := byte, head := head, framing := framing } (startEdge l t))

/-- FALSE_START of a line: the start is dropped; in AWAIT past the window's length it decides TIMEOUT (R3, R8). -/
def falseStart (l : Line) (s : State) : State :=
  let e := s.engine l
  if e.rx.char = none then s
  else
    let t := s.setEngine l { e with rx := { prev := some true, char := none } }
    match e.state, e.attempt with
    | .await, some a => if a.windowOver then endAttempt l .timeout t else t
    | _, _ => t

/-- FALSE_START (R3, R8). -/
def execFalseStart (l : Line) (s : State) : Next := .next (s.event (falseStart l))

/-! ## Windows and gaps -/

/-- REPLY_WINDOW_EXPIRY of a line: TIMEOUT, or the decision waits for the character in reception (R8). -/
def windowExpiry (l : Line) (s : State) : State :=
  let e := s.engine l
  match e.state, e.attempt with
  | .await, some a =>
    if e.rx.char.isSome then s.setEngine l { e with attempt := some { a with windowOver := true } }
    else endAttempt l .timeout s
  | _, _ => s

/-- REPLY_WINDOW_EXPIRY (R8). -/
def execReplyWindowExpiry (l : Line) (s : State) : Next := .next (s.event (windowExpiry l))

/-- CHARACTER_GAP_EXPIRY of a line: G bit times after a reply character with no start edge, BROKEN (R9). -/
def charGapExpiry (l : Line) (s : State) : State :=
  let e := s.engine l
  match e.state, e.attempt with
  | .receive, some a => if e.rx.char.isSome then s else enterQuiet l .broken a s
  | _, _ => s

/-- CHARACTER_GAP_EXPIRY (R9). -/
def execCharacterGapExpiry (l : Line) (s : State) : Next := .next (s.event (charGapExpiry l))

/-- The end of the quiet wait: the attempt ends with the outcome judged on entering it (R71). -/
def endQuiet (l : Line) (s : State) : State :=
  let e := s.engine l
  match e.state, e.attempt with
  | .quiet, some a => endAttempt l (a.judged.getD .broken) s
  | _, _ => s

/-- QUIET_IDLE_EXPIRY (R11): a line held at 0 is not idle. -/
def execQuietIdleExpiry (l : Line) (s : State) : Next :=
  .next (s.event fun t => if (t.engine l).rx.prev = some false then t else endQuiet l t)

/-- QUIET_LIMIT_EXPIRY (R11). -/
def execQuietLimitExpiry (l : Line) (s : State) : Next := .next (s.event (endQuiet l))

end Sys2Proof.Machine
end

