-- ==== Sys2Proof/Machine/Timing.lean ====
section
/-! DEFINITION. The Cycle Timer (chapter 2): cycle begins and stop boundaries, ticks, SYNC edges, the timer's commands, settings and
reads. -/

namespace Sys2Proof.Machine

/-! ## SYNC (R17) -/

/-- SYNC is an output: mode FREE with output enable on. -/
def Timer.syncIsOutput (t : Timer) : Bool := t.mode == .free && t.syncOutEnable

/-- The level the part drives on SYNC, none when it does not drive it. -/
def State.syncPin (s : State) : Option Bool :=
  if s.inReset || !s.timer.syncIsOutput then none else some (!s.timer.pulse)

/-! ## Cycle boundaries (R22, R23) -/

/-- The timer at a cycle begin (R22). -/
def Timer.begun (t : Timer) : Timer :=
  { t with value := 0, subTick := 0, cycleCount := t.cycleCount + 1, cycleFlag := true, pulse := t.syncIsOutput }

/-- The timer at a stop boundary (R23). R23 and R14 say that the sub-tick count stops, not what it then holds: that it is cleared is the
model's choice, and no tick depends on it, since it restarts from 0 at the next cycle begin (DESIGN CHOICE, log 26). -/
def Timer.stopped (t : Timer) : Timer :=
  { t with state := .stopped, sync := if t.mode = .follow then .notUsed else t.sync, value := 0, subTick := 0, pulse := false }

/-- Both engines take a notice. They own different state and need no order (R52). -/
def noticeBoth (n : Option Notice) (s : State) : State := takeNotice .b n (takeNotice .a n s)

/-- The appends of a boundary: the swap's event precedes the overruns of the notices given after it; the two lines' overruns, and the
timer's own event, have no fixed place (R44, R52, R143; log 5). -/
def appendBoundary (own swap overrunA overrunB : List Event) (s : State) : State :=
  let overruns := eitherOrder s (overrunA.map Append.plain) (overrunB.map Append.plain)
  let others := swap.map Append.plain ++ overruns.1
  match own with
  | [] => overruns.2.appendAll others
  | e :: _ =>
    let all := anyPlace overruns.2 (.plain e) others
    all.2.appendAll all.1

/-- The timer's own event at a cycle begin: SYNC_LOST or SYNC_REGAINED, with the cycle just begun (R27, R28). -/
def syncEvent (kind : Option EventKind) (cycle : Half) : List Event :=
  match kind with
  | some k => [{ kind := k, cycle := cycle }]
  | none => []

/-- A cycle begin (R22): the timer's own effects, the publication of the marked images (R126), the swap of an armed changeover (R44),
then the notices (R52). -/
def cycleBegin (own : Option EventKind) (s : State) : State :=
  let t := s.timer.begun
  let sch := s.schedule.swap
  let n : Notice := { cycle := t.cycleCount, bank := sch.active, changeovers := sch.changeovers }
  let s1 := ((s.withTimer t).withImages s.images.publishMarked).withSchedule sch
  appendBoundary (syncEvent own t.cycleCount) (s.schedule.swapEvents t.cycleCount)
    (overrunEvents .a 0 (s.engine .a)) (overrunEvents .b 0 (s.engine .b)) (noticeBoth (some n) s1)

/-- A stop boundary (R23): delivered to the Schedule Store only, which gives the cycles-ended notices (R53). -/
def stopBoundary (s : State) : State :=
  appendBoundary [] [] (overrunEvents .a 1 (s.engine .a)) (overrunEvents .b 1 (s.engine .b))
    (noticeBoth none (s.withTimer s.timer.stopped))

/-- The end of a cycle: a new cycle in RUNNING, a stop boundary in STOPPING and SINGLE (R21, R23). In RUNNING the sync state becomes
`sync`, and the timer's own event goes with the new cycle. -/
def endCycle (sync : SyncState) (own : Option EventKind) (s : State) : State :=
  match s.timer.state with
  | .running => cycleBegin own (s.withTimer { s.timer with sync := sync })
  | .stopping => stopBoundary s
  | .single => stopBoundary s
  | .stopped => s

/-! ## What a moment still owes -/

/-- The steps of a line that the present moment calls for: an OPEN slot at its end, a slot at its offset, and up to four requests that
can start (R61, R63, R131). Each does nothing when it is not called for. The buffer a slot or a request takes and the POOL_EMPTY it appends
go with its begin (R103, R104), so on the clock they too have the place among the other blocks' steps that log 25 gives. -/
def settleLine (l : Line) (s : State) : State :=
  startAcyclic l (startAcyclic l (startAcyclic l (startAcyclic l (slotBegin l (openSlotEnd l s)))))

/-- A line has a kept entry that has been reached, an OPEN slot at its end, or a request that can start. -/
def owes (l : Line) (s : State) : Bool :=
  openSlotOver l s || (startable l s).isSome
    || ((s.engine l).state == .wait && (s.engine l).slot.isNone && (s.engine l).notice.isSome
        && (s.engine l).next.any fun r => decide (r.entry.offset.toNat ≤ s.timer.value.toNat))

/-- Both lines' owed steps, before the next tick completes. When both owe, either line may be first (log 5), and all that one line owes is
taken before the other's. Their place after all else of the moment that called for them (a SYNC edge, an event of the Schedule Store, the
other line's takes, returns and publications, every append) is the model's choice where R28, R103, R105, R131, R143 and R144 leave either
order, and so is that the two lines' steps do not interleave (DESIGN CHOICE, log 25). -/
def settle (s : State) : State :=
  if owes .a s then
    if owes .b s then
      let t := s.drawn
      if Config.freeOrder s.choices % 2 = 0 then settleLine .b (settleLine .a t) else settleLine .a (settleLine .b t)
    else settleLine .a s
  else if owes .b s then settleLine .b s
  else s

/-! ## Ticks (R14, R21, R27) -/

/-- The value at which the timer makes a boundary of its own: P + W in LOCKED, P otherwise (R21, R27, R28). -/
def Timer.limit (t : Timer) : Nat := if t.sync = .locked then t.period.toNat + t.window.toNat else t.period.toNat

/-- The next tick to complete brings the value to the timer's own boundary. -/
def Timer.atLimit (t : Timer) : Bool := t.cycleRunning && decide (t.limit ≤ t.value.toNat + 1)

/-- The timer's own boundary (R21, R27, R28): in LOCKED sync is lost. -/
def ownBoundary (s : State) : State :=
  if s.timer.sync = .locked then endCycle .holdover (some .syncLost) s else endCycle s.timer.sync none s

/-- A tick completes (R14): the value advances by one and the SYNC pulse ends (R17), or the value reaches the timer's own boundary,
which ends the cycle at this moment (R21, R27). -/
def completeTick (s : State) : State :=
  if s.timer.cycleRunning then
    if s.timer.atLimit then ownBoundary s
    else s.withTimer { s.timer with value := s.timer.value + 1, subTick := 0, pulse := false }
  else s

/-- TICK (R14): the steps the present moment owes come first (log 8). -/
def execTick (s : State) : Next := .next (s.event fun t => if t.timer.cycleRunning then completeTick (settle t) else t)

/-- PERIOD_END (R21, R28): the tick that brings the value to P in FREE mode or in HOLDOVER. -/
def execPeriodEnd (s : State) : Next :=
  .next (s.event fun t =>
    if t.timer.sync ≠ .locked ∧ t.timer.atLimit then ownBoundary (settle t) else t)

/-- SYNC_WINDOW_EXPIRY (R27): the tick that brings the value to P + W in LOCKED. -/
def execSyncWindowExpiry (s : State) : Next :=
  .next (s.event fun t =>
    if t.timer.sync = .locked ∧ t.timer.atLimit then ownBoundary (settle t) else t)

/-! ## SYNC edges (R25, R26, R28) -/

/-- An edge is accepted in LOCKED from P - W on (R26). -/
def Timer.edgeAccepted (t : Timer) : Bool := decide (t.period.toNat ≤ t.value.toNat + t.window.toNat)

/-- A falling edge on SYNC: a sample at 0 that follows one at 1, in FOLLOW mode; it matters only while the timer is not STOPPED
(R17). -/
def syncEdge (s : State) : State :=
  let t := s.timer
  if t.mode = .follow ∧ t.prevSync = some true then
    let s1 := s.withTimer { t with prevSync := some false }
    if t.state = .stopped then s1
    else match t.sync with
    | .notUsed => s1
    | .seeking => cycleBegin none (s1.withTimer { s1.timer with sync := .locked })
    | .locked =>
      if t.edgeAccepted then endCycle .locked none s1
      else s1.withTimer { s1.timer with early := satInc t.early }
    | .holdover => endCycle .locked (some .syncRegained) s1
  else s

/-- SYNC_FALLING_EDGE (R25, R26, R28). -/
def execSyncFallingEdge (s : State) : Next := .next (s.event syncEdge)

/-- A sample of SYNC at 1, as an input (R17). -/
def syncHigh (s : State) : State :=
  if s.timer.mode = .follow then s.withTimer { s.timer with prevSync := some true } else s

/-- SYNC_SEEN_HIGH (R17). -/
def execSyncSeenHigh (s : State) : Next := .next (s.event syncHigh)

/-! ## Commands (R18 to R20) -/

/-- CYCLE_START (R18). -/
def startCycles (s : State) : Except CmdStatus State :=
  match s.timer.state, s.timer.mode with
  | .stopped, .free => .ok (cycleBegin none (s.withTimer { s.timer with state := .running }))
  | .stopped, .follow =>
    .ok (s.withTimer { s.timer with state := .running, sync := .seeking, early := 0, value := 0, prevSync := none })
  | .stopping, _ => .ok (s.withTimer { s.timer with state := .running })
  | .running, _ => .error .wrongState
  | .single, _ => .error .wrongState

/-- CYCLE_START (R18). -/
def execCycleStart (s : State) : Next := .next (commandAccess 0x01 startCycles s)

/-- CYCLE_STOP (R19). -/
def stopCycles (s : State) : Except CmdStatus State :=
  match s.timer.state with
  | .running =>
    if s.timer.sync = .seeking then .ok (s.withTimer { s.timer with state := .stopped, sync := .notUsed })
    else .ok (s.withTimer { s.timer with state := .stopping })
  | .single => .ok (s.withTimer { s.timer with state := .stopping })
  | .stopping => .ok s
  | .stopped => .error .wrongState

/-- CYCLE_STOP (R19). -/
def execCycleStop (s : State) : Next := .next (commandAccess 0x02 stopCycles s)

/-- CYCLE_SINGLE (R20). -/
def singleCycle (s : State) : Except CmdStatus State :=
  if s.timer.state = .stopped ∧ s.timer.mode = .free then
    .ok (cycleBegin none (s.withTimer { s.timer with state := .single }))
  else .error .wrongState

/-- CYCLE_SINGLE (R20). -/
def execCycleSingle (s : State) : Next := .next (commandAccess 0x03 singleCycle s)

/-! ## Settings (R15, R16) -/

/-- A write of a setting: taken, or ignored with SET_LOCKED. -/
def settingWrite (taken : Bool) (f : Timer → Timer) (s : State) : State :=
  if taken then s.withTimer (f s.timer) else s.flagSetLocked

/-- The timer is STOPPED, so its settings may be written (R15). -/
def Timer.settable (t : Timer) : Bool := t.state == .stopped

/-- CYT_MODE_WRITE (R15, R168). -/
def execCytModeWrite (v : Byte) (s : State) : Next :=
  .next (s.access fun u => settingWrite u.timer.settable (fun t =>
    { t with mode := if v.getLsbD 0 then .follow else .free, syncOutEnable := v.getLsbD 1 }) u)

/-- CYT_PRESCALE_WRITE (R15). -/
def execCytPrescaleWrite (v : Byte) (s : State) : Next :=
  .next (s.access fun u => settingWrite u.timer.settable (fun t => { t with prescaler := v }) u)

/-- A value is in range for the sync window (R15). -/
def Timer.windowFits (t : Timer) (v : Byte) : Bool := v != 0 && decide (t.period.toNat + v.toNat ≤ 65535)

/-- CYT_WINDOW_WRITE (R15). -/
def execCytWindowWrite (v : Byte) (s : State) : Next :=
  .next (s.access fun u => settingWrite (u.timer.settable && u.timer.windowFits v) (fun t => { t with window := v }) u)

/-- CYT_PERIOD_LOW_WRITE: the holding byte only (R16). -/
def execCytPeriodLowWrite (v : Byte) (s : State) : Next :=
  .next (s.access fun u => u.withTimer { u.timer with periodHold := v })

/-- The six conditions of a period write (R16). -/
def periodFits (s : State) (candidate : Half) : Bool :=
  s.timer.settable
  && decide (100 ≤ candidate.toNat)
  && decide (candidate.toNat + s.timer.window.toNat ≤ 65535)
  && bankBelow s.schedule.activeBank candidate
  && (s.schedule.changeover != .armed || bankBelow s.schedule.pendingBank candidate)
  && s.schedule.changeover != .checking

/-- CYT_PERIOD_HIGH_WRITE: the period write (R16). -/
def execCytPeriodHighWrite (v : Byte) (s : State) : Next :=
  .next (s.access fun u =>
    let candidate := halfOf u.timer.periodHold v
    settingWrite (periodFits u candidate) (fun t => { t with period := candidate }) u)

/-! ## Reads (R29) -/

/-- CYT_VALUE_LOW_READ: the low byte, with the high byte latched (R29). -/
def execCytValueLowRead (s : State) : Next :=
  .next (s.access fun u =>
    (u.withTimer { u.timer with valueLatch := highByte u.timer.value }).withHost
      { u.host with data := some (lowByte u.timer.value) })

/-- CYCLE_COUNT_LOW_READ: the low byte, with the high byte latched (R29). -/
def execCycleCountLowRead (s : State) : Next :=
  .next (s.access fun u =>
    (u.withTimer { u.timer with countLatch := highByte u.timer.cycleCount }).withHost
      { u.host with data := some (lowByte u.timer.cycleCount) })

/-- CYT_STATUS as read (section 11.1). -/
def cytStatus (t : Timer) : Byte := timerCode t.state ||| (syncCode t.sync <<< 4)

/-- CYT_MODE as read (section 11.1). -/
def cytMode (t : Timer) : Byte := byteOfBits [t.mode == .follow, t.syncOutEnable]

end Sys2Proof.Machine
end

