-- ==== Sys2Proof/Machine/Clock.lean ====
section
/-! DEFINITION. What a reference clock period brings about by itself, when no command waits: ticks, the bit times of the lines, the
receiver's samples, the spans of windows and gaps, the bounds of the check and the copy (R1 to R3, R8, R9, R11, R12, R14, R17, R41,
R47). An empty queue lets one period pass (log 2). -/

namespace Sys2Proof.Machine

/-! ## Counting -/

/-- The next sample of an input pin; with none to come it keeps its level (log 10). -/
def InputPin.sample (p : InputPin) : InputPin :=
  match p.upcoming with
  | b :: rest => { level := b, upcoming := rest }
  | [] => p

/-- Reference clock periods of one tick (R14). -/
def Timer.tickPeriods (t : Timer) : Nat := 16 * (t.prescaler.toNat + 1)

/-- The timer samples SYNC: mode FOLLOW (R17). -/
def Timer.samplesSync (t : Timer) : Bool := t.mode == .follow

/-- The sample just taken is a falling edge (R17). -/
def syncFalls (s : State) : Bool := s.timer.samplesSync && s.timer.prevSync == some true && !s.inputs.sync.level

/-- The timer's part of a period: the sub-tick count runs while a cycle runs (R14), and SYNC is sampled (R17). -/
def countTimer (s : State) : State :=
  let s1 := s.withInputs { s.inputs with sync := s.inputs.sync.sample }
  let t := { s1.timer with subTick := if s1.timer.cycleRunning then s1.timer.subTick + 1 else s1.timer.subTick }
  let s2 := s1.withTimer t
  if t.samplesSync && !syncFalls s2 then s2.withTimer { t with prevSync := some s2.inputs.sync.level } else s2

/-- A line's part of a period: its spans grow by one reference period. -/
def Engine.countPeriod (e : Engine) : Engine :=
  { e with
    elapsed := e.elapsed + 1
    idle := e.idle + 1
    sampleClock := e.sampleClock + 1
    tx := e.tx.map fun c => { c with clock := c.clock + 1 } }

/-- The counting of one period, in every block. -/
def countAll (s : State) : State :=
  let s1 := countTimer s
  let s2 := (s1.setEngine .a (s1.engine .a).countPeriod).setEngine .b (s1.engine .b).countPeriod
  s2.withSchedule { s2.schedule with age := s2.schedule.age + 1 }

/-! ## The receiver (R3) -/

/-- The receiver of a line remembers the sample it has just taken; a 0 ends the idle span (R3, R11). -/
def rememberSample (l : Line) (level : Bool) (s : State) : State :=
  let e := s.engine l
  if e.state = .off then s
  else s.setEngine l { e with rx := { e.rx with prev := some level }, idle := if level then e.idle else 0 }

/-- A sample within a character: votes at sixteenths 6, 8 and 10, and the position's decision at 10 (R3). -/
def sampleCharacter (l : Line) (level : Bool) (p : RxProgress) (s : State) : State :=
  let e := s.engine l
  let n := p.count + 1
  let sixteenth := n % 16
  let votes := if sixteenth = 6 ∨ sixteenth = 8 ∨ sixteenth = 10 then level :: p.votes else p.votes
  if sixteenth = 10 then
    let bit := majority votes
    if n / 16 = 0 ∧ bit = true then falseStart l s
    else if n / 16 = 10 then completeCharacter l (rxCharOf (p.bits ++ [bit])) s
    else s.setEngine l { e with rx := { e.rx with
      char := some { p with count := n, votes := [], bits := p.bits ++ [bit] } } }
  else s.setEngine l { e with rx := { e.rx with char := some { p with count := n, votes := votes } } }

/-- One sample of RX (R3): part of the character in reception, or a falling edge, or neither. -/
def sampleLine (l : Line) (s : State) : State :=
  let pin := (s.inputs.rx.get l).sample
  let t := s.withInputs { s.inputs with rx := s.inputs.rx.set l pin }
  let u := match (t.engine l).rx.char with
    | some p => sampleCharacter l pin.level p t
    | none => if pin.level = false ∧ (t.engine l).rx.prev = some true then startEdge l t else t
  rememberSample l pin.level u

/-! ## A line's moments -/

/-- The span in reference periods of a setting in bit times (R1). -/
def Engine.bits (e : Engine) (n : Nat) : Nat := n * e.bitTime

/-- The reply window of the attempt in flight, in bit times. -/
def Engine.window (e : Engine) : Nat := (e.attempt.map (·.replyWindow.toNat)).getD 0

/-- The line's moment that the present period completes, if any, by engine state (R2, R8, R9, R11, R12). -/
def lineMoment (l : Line) (s : State) : State :=
  let e := s.engine l
  match e.state with
  | .transmit => if e.tx.any fun c => decide (e.bits 11 ≤ c.clock) then characterSent l s else s
  | .await =>
    if e.bits e.window ≤ e.elapsed ∧ e.attempt.any (fun a => !a.windowOver) = true then windowExpiry l s else s
  | .receive => if e.bits e.charGap.toNat ≤ e.elapsed then charGapExpiry l s else s
  | .quiet =>
    if e.bits e.frameGap.toNat ≤ e.idle ∧ e.rx.prev ≠ some false then endQuiet l s
    else if e.bits e.window ≤ e.elapsed then endQuiet l s
    else s
  | .gap => if e.bits e.frameGap.toNat ≤ e.elapsed then frameGapEnd l s else s
  | .off => s
  | .wait => s

/-- The sample of a line that falls due (R1). -/
def lineSample (l : Line) (s : State) : State :=
  let e := s.engine l
  if e.samplePeriod ≤ e.sampleClock then sampleLine l (s.setEngine l { e with sampleClock := 0 }) else s

/-- A line's part of a moment: the sample that falls due, then the moments it completes. The sample comes first: an edge at the end of
a window or of a character gap is within it (R8, R9), and an echo decided by then is in time (R13). With no character in reception the end
of a sent character and the end of a frame gap come first: an edge at that moment belongs to what begins then, the next character, a
reply window or the head of another attempt (R8, R13). A judgement can be followed at once by the end of the quiet wait. -/
def lineAct (l : Line) (s : State) : State :=
  let e := s.engine l
  let s0 := if (e.state = .transmit ∨ e.state = .gap) ∧ e.rx.char = none then lineMoment l s else s
  lineMoment l (lineMoment l (lineSample l s0))

/-- A line has something to do in the present period. -/
def lineDue (e : Engine) : Bool :=
  decide (e.samplePeriod ≤ e.sampleClock)
    || (match e.state with
        | .transmit => e.tx.any fun c => decide (e.bits 11 ≤ c.clock)
        | .await => decide (e.bits e.window ≤ e.elapsed)
        | .receive => decide (e.bits e.charGap.toNat ≤ e.elapsed)
        | .quiet => decide (e.bits e.frameGap.toNat ≤ e.idle) || decide (e.bits e.window ≤ e.elapsed)
        | .gap => decide (e.bits e.frameGap.toNat ≤ e.elapsed)
        | .off => false
        | .wait => false)

/-! ## The store's clocked operations (R41, R47) -/

/-- The check examines the count or entry it stands at (R41); how many it examines in one period is `checkMoves`. -/
def checkMove (s : State) : State :=
  match s.schedule.checkPos with
  | none => s
  | some p =>
    let t := s.schedule.pendingBank.get p.line
    let failed :=
      if p.done = 0 then (t.checkCount p.line).isSome
      else (t.checkEntry s.timer.period p.line (Fin.ofNat 32 (p.done - 1))).isSome
    if failed then endCheck s
    else if p.done < t.count.toNat then
      s.withSchedule { s.schedule with checkPos := some { p with done := p.done + 1 } }
    else match p.line with
      | .a => s.withSchedule { s.schedule with checkPos := some { line := .b, done := 0 } }
      | .b => endCheck s

/-- The check examines a number of counts and entries, one after another; it stops where it ends (R41). The spec gives no speed, so the
number is open in every period (DESIGN CHOICE, log 7). -/
def checkMoves : Nat → State → State
  | 0, s => s
  | n + 1, s => checkMoves n (checkMove s)

/-- The store's part of a period: an open choice says how far the check comes, or whether the copy ends, below their bounds. The bound of
160 periods that R41 gives a full bank is kept for every bank: how much sooner fewer entries end is not said, so an open choice may
end them at any period up to it (DESIGN CHOICE, log 7). -/
def storeAct (s : State) : State :=
  if s.schedule.changeover = .checking then
    let t := s.drawn
    if Config.checkBound ≤ s.schedule.age then endCheck t
    else checkMoves (Config.freeCheckMoves s.choices) t
  else if s.schedule.copy.isSome then
    let t := s.drawn
    if Config.copyBound ≤ s.schedule.age then endCopy t
    else if Config.freeCopyEnds s.choices then endCopy t
    else t
  else s

/-! ## One period -/

/-- What can act in a period. -/
inductive Actor where
  | timer
  | sync
  | line (l : Line)
  | store
deriving DecidableEq, Repr

/-- The actor has something to do. -/
def Actor.due (a : Actor) (s : State) : Bool :=
  match a with
  | .timer => s.timer.cycleRunning && decide (s.timer.tickPeriods ≤ s.timer.subTick)
  | .sync => syncFalls s
  | .line l => lineDue (s.engine l)
  | .store => s.schedule.changeover == .checking || s.schedule.copy.isSome

/-- The actor acts, if it still has something to do. -/
def Actor.act (a : Actor) (s : State) : State :=
  if a.due s then
    match a with
    | .timer => completeTick s
    | .sync => syncEdge s
    | .line l => lineAct l s
    | .store => storeAct s
  else s

/-- A list in an order that a number chooses; every order has its numbers. -/
def shuffle (n : Nat) : List α → List α
  | [] => []
  | x :: xs =>
    let rest := shuffle (n / (xs.length + 1)) xs
    rest.take (n % (xs.length + 1)) ++ x :: rest.drop (n % (xs.length + 1))

/-- The actors with something to do, in an open order when there are several (log 18). -/
def dueActors (s : State) : List Actor × State :=
  let due := [Actor.timer, .sync, .line .a, .line .b, .store].filter (·.due s)
  match due with
  | [] => ([], s)
  | [x] => ([x], s)
  | xs => (shuffle (Config.freeOrder s.choices) xs, s.drawn)

/-- The last start edge is of the present moment: no reference period has passed since. -/
def Engine.edgeNow (e : Engine) : Bool := e.rx.char.any (fun p => p.count == 0) && e.idle == 0

/-- A line that begins to send, from `s` to `t`, in the moment of a start edge: the edge lies at the beginning of the head's start bit, so its
character is the echo's (R13: at or after the beginning; log 9). -/
def claimEdge (l : Line) (s t : State) : State :=
  let e := t.engine l
  if (s.engine l).state ≠ .transmit ∧ (s.engine l).edgeNow = true ∧ e.state = .transmit then
    t.setEngine l { e with rx := { e.rx with char := e.rx.char.map fun p => { p with place := e.edgePlace } } }
  else t

/-- What the present moment still owes, as the clock takes it at the begin of the next period: the owed steps of both lines, with a start
edge of the same moment in the head of what they send. -/
def settleMoment (s : State) : State :=
  let t := settle s
  claimEdge .b s (claimEdge .a s t)

/-- One reference clock period: what the present moment owes, then the period's counting, then what it completes. Held in reset the part
counts and samples nothing (R165). A slot that a tick has brought to its offset, with the take of its buffer and the POOL_EMPTY of a miss
(R61, R103, R104), an OPEN slot's end (R63), a reservation request (R144) and the start of its request (R131) are taken with what the moment
owes: so after every tick, SYNC edge, event of the Schedule Store, take, return, publication and append of the other blocks at that
moment. R28, R103, R105, R131, R143 and R144 leave either order, and this one is the model's (DESIGN CHOICE, log 25). Given as commands,
SLOT_BEGIN, OPEN_SLOT_END and ACYCLIC_START are taken where their sender puts them. -/
def clockPeriod (s : State) : State :=
  if s.inReset then s
  else
    let due := dueActors (countAll (settleMoment s))
    due.1.foldl (fun u a => a.act u) due.2

end Sys2Proof.Machine
end

