-- ==== Sys2Proof/Decode.lean ====
section
/-! DEFINITION. How words spell commands. spec/opcode_table.json gives no row any bits, so no word spells a command (log 20);
what the spec does encode is the command code written to CMD (section 11.10) and the register offset of an access. -/

namespace Sys2Proof

/-- The command that a word spells by the table's bits. No row of the table has bits. log 20 -/
def decodeTableWord (_nbits _w : Nat) : Option Instr := none

/-- The command given by a code written to CMD (section 11.10); every other code names none. -/
def commandOfCode (code : Byte) : Option Instr :=
  match code.toNat with
  | 0x01 => some .cycleStart
  | 0x02 => some .cycleStop
  | 0x03 => some .cycleSingle
  | 0x10 => some .changeover
  | 0x11 => some .abortChangeover
  | 0x12 => some .copyActive
  | 0x20 => some .lineEnable
  | 0x21 => some .lineDisable
  | 0x28 => some .park
  | 0x29 => some .unpark
  | 0x2A => some .clearCounters
  | 0x30 => some .publishImage
  | 0x31 => some .markImage
  | 0x32 => some .unmarkAll
  | 0x40 => some .claim
  | 0x41 => some .release
  | 0x42 => some .flush
  | 0x50 => some .post
  | 0x51 => some .cancel
  | 0x60 => some .pop
  | 0x7F => some .softReset
  | _ => none

/-- The setting at an offset of a line block (section 11.1). -/
def lineSettingAt (off : Nat) : Option LineSetting :=
  match off with
  | 0x2 => some .frameGap
  | 0x3 => some .charGap
  | 0x4 => some .failThreshold
  | 0x5 => some .probeInterval
  | 0x6 => some .lineFlags
  | 0x7 => some .eventMask
  | _ => none

/-- The write of a byte at an offset of a line's block, where it has a row of its own. -/
def lineBlockWrite (l : Line) (off : Nat) (v : Byte) : Option Instr :=
  match off with
  | 0x0 => some (.divisorLowWrite l v)
  | 0x1 => some (.divisorHighWrite l v)
  | 0xA => some (.overrunCounterWrite l v)
  | 0xB => some (.strayCounterWrite l v)
  | _ => (lineSettingAt off).map (.lineSettingWrite l · v)

/-- The command that a write of byte `v` at a direct register offset is, where the table gives that write a row of its own
(section 11.1); `none` for the offsets that REGISTER_WRITE itself stands for. A write to CMD gives the command of its code. -/
def ownRowOfWrite (offset : BitVec 6) (v : Byte) : Option Instr :=
  match offset.toNat with
  | 0x02 => some (.hostStatusWrite v)
  | 0x03 => some (.irqEnableWrite v)
  | 0x04 => some (.irqStatusWrite v)
  | 0x05 => some ((commandOfCode v).getD (.badCommand v))
  | 0x0B => some (.winDataWrite v)
  | 0x0C => some (.winPeekWrite v)
  | 0x10 => some (.cytModeWrite v)
  | 0x11 => some (.cytPrescaleWrite v)
  | 0x12 => some (.cytPeriodLowWrite v)
  | 0x13 => some (.cytPeriodHighWrite v)
  | 0x14 => some (.cytWindowWrite v)
  | 0x3F => some (.poolMissesWrite v)
  | n =>
    if 0x20 ≤ n ∧ n < 0x30 then lineBlockWrite .a (n - 0x20) v
    else if 0x30 ≤ n ∧ n < 0x3C then lineBlockWrite .b (n - 0x30) v
    else none

end Sys2Proof
end

