-- ==== Sys2Proof/Machine/Resets.lean ====
section
/-! DEFINITION. Pin reset, power-up and soft reset (section 10.5). -/

namespace Sys2Proof.Machine

/-- Every block in its reset state (R165). What is not the part's stays: the levels its input pins are given, the queue of commands,
and the number of open choices drawn. -/
def resetBlocks (s : State) : State :=
  { State.reset with inputs := s.inputs, choices := s.choices, pending := s.pending }

/-- PIN_RESET: every block takes its reset state and the part is held in it (R165). -/
def execPinReset (s : State) : Next := .next { resetBlocks s with inReset := true }

/-- RESET_RELEASE: the part begins operation from the reset state (R165). -/
def execResetRelease (s : State) : Next := .next { s with inReset := false }

/-- POWER_UP: the power-on detector holds the part in pin reset (R165, log 3). -/
def execPowerUp (s : State) : Next := .next { resetBlocks s with inReset := true }

/-- A soft reset: every block in its reset state, the reset cause SOFT; the part runs on (R166). -/
def softReset (s : State) : Except CmdStatus State :=
  .ok ((resetBlocks s).withHost { HostPort.reset with cause := .soft })

/-- SOFT_RESET (R166): CMD_STATUS then reads ACCEPTED and CMD the command's code. -/
def execSoftReset (s : State) : Next := .next (commandAccess 0x7F softReset s)

end Sys2Proof.Machine
end

