-- ==== Sys2Proof/Machine/Window.lean ====
section
/-! DEFINITION. The indirect window (sections 10.2 and 11.2): reads answered by the owning block, record latching, writes taken or
ignored with a flag, and the pointer. -/

namespace Sys2Proof.Machine

/-! ## Reads (R157 to R160) -/

/-- A read of a latchable record's byte (R159, R160): byte 0 latches the whole record; another byte comes from the latch when the latch
holds this record, else from the record as it stands. -/
def readRecord (id : RecordId) (bytes : List Byte) (k : Nat) (s : State) : Byte × State :=
  if k = 0 then (bytes.getD 0 0, s.withHost { s.host with latch := some { id := id, bytes := bytes } })
  else match s.host.latch with
    | some c => if c.id = id then (c.bytes.getD k 0, s) else (bytes.getD k 0, s)
    | none => (bytes.getD k 0, s)

/-- The buffer parts of a mailbox view: the claimed buffer's byte while a claim is held, else 0 with WIN_ERROR (R116). -/
def readClaimed (m : Mailbox) (byte : Buffer → Byte) (s : State) : Byte × State :=
  match m.state, m.current with
  | .claimed, some b => (byte s.pool.buffers[b], s)
  | .claimedNext, some b => (byte s.pool.buffers[b], s)
  | .claimed, none => (0, s)
  | .claimedNext, none => (0, s)
  | .empty, _ => (0, s.flagWinError)
  | .full, _ => (0, s.flagWinError)

/-- The buffer attached to the head event (R150). -/
def headBuffer (s : State) : Option Buffer :=
  match s.events.entries with
  | e :: _ => e.buffer.map fun b => s.pool.buffers[b]
  | [] => none

/-- The header part of the event head view: zeros while the queue is empty (R150). -/
def headBytes (s : State) : List Byte :=
  match s.events.entries with
  | e :: _ => eventBytes s.pool.buffers e
  | [] => List.replicate 16 0

/-- The event head view's buffer header part: cycle and kind of the attached buffer (R150). -/
def headBufferByte (b : Buffer) (k : Nat) : Byte :=
  match k with
  | 0 => lowByte b.cycle
  | 1 => highByte b.cycle
  | _ => b.kind

/-- A window read, answered by the block that owns the place (section 10.2). -/
def windowRead (t : WinTarget) (s : State) : Byte × State :=
  match t with
  | .pendingEntry l i k =>
    let u := copyProgress s
    (entryByte ((u.schedule.pendingBank.get l).entries[i]) k, u)
  | .activeEntry l i k => (entryByte ((s.schedule.activeBank.get l).entries[i]) k, s)
  | .pendingCount l =>
    let u := copyProgress s
    ((u.schedule.pendingBank.get l).count, u)
  | .activeCount l => ((s.schedule.activeBank.get l).count, s)
  | .result l i k => readRecord (.result l i) (resultBytes (s.schedule.results.get l)[i]) k s
  | .station l a k => readRecord (.station l a) (stationBytes (s.station l a)) k s
  | .staged n k => (s.images.images[n].staged[k]?.getD 0, s)
  | .live n k => (s.images.images[n].live[k]?.getD 0, s)
  | .generation n => (s.images.images[n].generation, s)
  | .marked n => (byteOfBool s.images.marked[n], s)
  | .mailboxPart m k => readRecord (.mailbox m) (mailboxBytes s.mailboxes[m]) k s
  | .mailboxHeader m k => readClaimed s.mailboxes[m] (fun b => bufferHeaderByte b k) s
  | .mailboxPayload m k => readClaimed s.mailboxes[m] (fun b => bufferPayloadByte b k) s
  | .eventHeader k => readRecord .eventHead (headBytes s) k s
  | .eventPayload k => (((headBuffer s).map fun b => bufferPayloadByte b k).getD 0, s)
  | .eventBufferHeader k => (((headBuffer s).map fun b => headBufferByte b k).getD 0, s)
  | .staging l k => (descriptorByte (s.acyclic.get l).staging k, s)
  | .queueView l p k => (queueViewByte ((s.acyclic.get l).queue[p]?) k, s)
  | .unmapped => (0, s.flagWinError)

/-! ## Writes (R33, R120, R121, R128, R158) -/

/-- A write into the pending view: taken in NONE with no copy running, else ignored with WIN_LOCKED (R33). -/
def writePending (f : Bank → Bank) (s : State) : State :=
  if s.schedule.pendingShielded then s.flagWinLocked
  else s.withSchedule (s.schedule.withPending (f s.schedule.pendingBank))

/-- A window write, taken or ignored by the block that owns the place (section 10.2). -/
def windowWrite (t : WinTarget) (v : Byte) (s : State) : State :=
  match t with
  | .pendingEntry l i k => writePending (fun b => b.set l ((b.get l).withEntryByte i k v)) s
  | .pendingCount l => writePending (fun b => b.set l { b.get l with count := v }) s
  | .staged n k =>
    let i := s.images.images[n]
    s.withImages { s.images with images := setAt s.images.images n { i with staged := i.staged.setIfInBounds k v } }
  | .staging l k =>
    let q := s.acyclic.get l
    s.setAcyclic l { q with staging := descriptorWith q.staging k v }
  | .activeEntry _ _ _ | .activeCount _ | .result _ _ _ | .station _ _ _ | .live _ _ | .generation _ | .marked _
  | .mailboxPart _ _ | .mailboxHeader _ _ | .mailboxPayload _ _ | .eventHeader _ | .eventPayload _
  | .eventBufferHeader _ | .queueView _ _ _ | .unmapped => s.flagWinError

/-! ## WIN_DATA and WIN_PEEK (R157) -/

/-- A window read at the pointer; the byte is driven on the data lines. -/
def readAtPointer (s : State) : State :=
  let answer := windowRead (winTarget s.host.ptr) s
  answer.2.withHost { answer.2.host with data := some answer.1 }

/-- A window write at the pointer. -/
def writeAtPointer (v : Byte) (s : State) : State := windowWrite (winTarget s.host.ptr) v s

/-- The pointer moved on by one, from 0xFFFF to 0 (R157). -/
def advancePointer (s : State) : State := s.withHost { s.host with ptr := s.host.ptr + 1 }

/-- WIN_DATA_READ (R157). -/
def execWinDataRead (s : State) : Next := .next (s.access fun t => advancePointer (readAtPointer t))

/-- WIN_DATA_WRITE (R157). -/
def execWinDataWrite (v : Byte) (s : State) : Next := .next (s.access fun t => advancePointer (writeAtPointer v t))

/-- WIN_PEEK_READ (R157). -/
def execWinPeekRead (s : State) : Next := .next (s.access readAtPointer)

/-- WIN_PEEK_WRITE (R157). -/
def execWinPeekWrite (v : Byte) (s : State) : Next := .next (s.access (writeAtPointer v))

end Sys2Proof.Machine
end

