-- ==== Sys2Proof/Machine/HostPort.lean ====
section
/-! DEFINITION. The direct registers (R155, section 11.1): line settings and counters, the writes that any offset takes, refused command
codes, and the value every offset reads. -/

namespace Sys2Proof.Machine

/-! ## Line settings and counters (R55, R56) -/

/-- DIVISOR_LOW_WRITE: the line's holding byte only (R55). -/
def execDivisorLowWrite (l : Line) (v : Byte) (s : State) : Next :=
  .next (s.access fun t => t.setEngine l { t.engine l with divisorHold := v })

/-- DIVISOR_HIGH_WRITE: the divisor write, taken in OFF with a candidate of at most 4095 (R55). -/
def execDivisorHighWrite (l : Line) (v : Byte) (s : State) : Next :=
  .next (s.access fun t =>
    let e := t.engine l
    let candidate := halfOf e.divisorHold v
    if e.state = .off ∧ candidate.toNat ≤ 4095 then t.setEngine l { e with divisor := candidate }
    else t.flagSetLocked)

/-- A value lies in a setting's range (R55, section 4.1). -/
def settingFits (which : LineSetting) (v : Byte) : Bool :=
  match which with
  | .frameGap => decide (2 ≤ v.toNat ∧ v.toNat ≤ 63)
  | .charGap => decide (2 ≤ v.toNat ∧ v.toNat ≤ 15)
  | .failThreshold => decide (1 ≤ v.toNat ∧ v.toNat ≤ 15)
  | .probeInterval => decide (1 ≤ v.toNat)
  | .lineFlags => true
  | .eventMask => true

/-- An engine with a setting written; packed settings take their used positions (R168). -/
def Engine.withSetting (e : Engine) (which : LineSetting) (v : Byte) : Engine :=
  match which with
  | .frameGap => { e with frameGap := v }
  | .charGap => { e with charGap := v }
  | .failThreshold => { e with failThreshold := v }
  | .probeInterval => { e with probeInterval := v }
  | .lineFlags => { e with echoCheck := v.getLsbD 0 }
  | .eventMask => { e with mask := { stationOnline := v.getLsbD 0, stationOffline := v.getLsbD 1,
                                     statusChange := v.getLsbD 2, cycleOverrun := v.getLsbD 3 } }

/-- LINE_SETTING_WRITE: taken in OFF with a value in range, else ignored with SET_LOCKED (R55). -/
def execLineSettingWrite (l : Line) (which : LineSetting) (v : Byte) (s : State) : Next :=
  .next (s.access fun t =>
    if (t.engine l).state = .off ∧ settingFits which v = true then t.setEngine l ((t.engine l).withSetting which v)
    else t.flagSetLocked)

/-- OVERRUN_COUNTER_WRITE: any value sets the counter to 0 (R56). -/
def execOverrunCounterWrite (l : Line) (_v : Byte) (s : State) : Next :=
  .next (s.access fun t => t.setEngine l { t.engine l with overruns := 0 })

/-- STRAY_COUNTER_WRITE: any value sets the counter to 0 (R56). -/
def execStrayCounterWrite (l : Line) (_v : Byte) (s : State) : Next :=
  .next (s.access fun t => t.setEngine l { t.engine l with strays := 0 })

/-! ## Writes by offset and by code (R155, R162) -/

/-- A code that belongs to no command: refused BAD_COMMAND by the Host Port (R162). -/
def badCode (code : Byte) (s : State) : Next := .next (commandAccess code (fun _ => .error .badCommand) s)

/-- The meaning of a row that is a write of a direct register, CMD included. The rows that are no writes are left to their own
meanings. -/
def writeRow (i : Instr) (s : State) : Next :=
  match i with
  | .cycleStart => execCycleStart s
  | .cycleStop => execCycleStop s
  | .cycleSingle => execCycleSingle s
  | .changeover => execChangeover s
  | .abortChangeover => execAbortChangeover s
  | .copyActive => execCopyActive s
  | .lineEnable => execLineEnable s
  | .lineDisable => execLineDisable s
  | .park => execPark s
  | .unpark => execUnpark s
  | .clearCounters => execClearCounters s
  | .publishImage => execPublishImage s
  | .markImage => execMarkImage s
  | .unmarkAll => execUnmarkAll s
  | .claim => execClaim s
  | .release => execRelease s
  | .flush => execFlush s
  | .post => execPost s
  | .cancel => execCancel s
  | .pop => execPop s
  | .softReset => execSoftReset s
  | .badCommand code => badCode code s
  | .cytModeWrite v => execCytModeWrite v s
  | .cytPrescaleWrite v => execCytPrescaleWrite v s
  | .cytWindowWrite v => execCytWindowWrite v s
  | .cytPeriodLowWrite v => execCytPeriodLowWrite v s
  | .cytPeriodHighWrite v => execCytPeriodHighWrite v s
  | .divisorLowWrite l v => execDivisorLowWrite l v s
  | .divisorHighWrite l v => execDivisorHighWrite l v s
  | .lineSettingWrite l which v => execLineSettingWrite l which v s
  | .overrunCounterWrite l v => execOverrunCounterWrite l v s
  | .strayCounterWrite l v => execStrayCounterWrite l v s
  | .poolMissesWrite v => execPoolMissesWrite v s
  | .hostStatusWrite v => execHostStatusWrite v s
  | .irqStatusWrite v => execIrqStatusWrite v s
  | .irqEnableWrite v => execIrqEnableWrite v s
  | .winDataWrite v => execWinDataWrite v s
  | .winPeekWrite v => execWinPeekWrite v s
  | .cytValueLowRead | .cycleCountLowRead | .schChangeoversLowRead | .winDataRead | .winPeekRead | .registerWrite _ _
  | .pinReset | .resetRelease | .powerUp | .tick | .periodEnd | .syncWindowExpiry | .syncFallingEdge | .syncSeenHigh
  | .changeoverCheckEnd | .copyComplete | .slotBegin _ | .characterTransmitted _ | .receivedCharacter _ _ _ _
  | .falseStart _ | .replyWindowExpiry _ | .characterGapExpiry _ | .quietIdleExpiry _ | .quietLimitExpiry _
  | .frameGapEnd _ | .openSlotEnd _ | .acyclicStart _ | .startEdge _ | .rxReturnedTo1 _ => .next s

/-- BAD_COMMAND: a code written to CMD that names no command (R162). A code that does name one gives that command (log 16). -/
def execBadCommand (code : Byte) (s : State) : Next :=
  match commandOfCode code with
  | some i => writeRow i s
  | none => badCode code s

/-- A plain register stored at once; read-only and unused offsets ignore the write without a flag (R155, R156, R168). -/
def plainWrite (offset : BitVec 6) (v : Byte) (s : State) : State :=
  match offset.toNat with
  | 0x06 => s.withHost { s.host with arg0 := v }
  | 0x07 => s.withHost { s.host with arg1 := v }
  | 0x09 => s.withHost { s.host with ptr := withLow s.host.ptr v }
  | 0x0A => s.withHost { s.host with ptr := withHigh s.host.ptr v }
  | _ => s

/-- REGISTER_WRITE (R155). At an offset whose write has a row of its own the write is that row's (log 16). -/
def execRegisterWrite (offset : BitVec 6) (v : Byte) (s : State) : Next :=
  match ownRowOfWrite offset v with
  | some i => writeRow i s
  | none => .next (s.access (plainWrite offset v))

/-! ## What the direct registers read (R155, section 11.1) -/

/-- The event mask as a byte (section 11.1). -/
def maskByte (m : EventMask) : Byte := byteOfBits [m.stationOnline, m.stationOffline, m.statusChange, m.cycleOverrun]

/-- The entry index of the slot in progress, 255 while none is (R56). -/
def Engine.indexByte (e : Engine) : Byte :=
  match e.slot with
  | some c => BitVec.ofNat 8 c.index.val
  | none => 255

/-- What a line block reads at an offset (section 11.1). -/
def lineBlockRead (e : Engine) (off : Nat) : Byte :=
  match off with
  | 0x0 => lowByte e.divisor
  | 0x1 => highByte e.divisor
  | 0x2 => e.frameGap
  | 0x3 => e.charGap
  | 0x4 => e.failThreshold
  | 0x5 => e.probeInterval
  | 0x6 => byteOfBool e.echoCheck
  | 0x7 => maskByte e.mask
  | 0x8 => engineCode e.state
  | 0x9 => e.indexByte
  | 0xA => e.overruns
  | 0xB => e.strays
  | _ => 0

/-- The value a direct register offset reads. Only reads that have a row of the table change state besides (the window offsets and the
low bytes of the latched registers); for them this is the byte they answer. -/
def directRead (s : State) (offset : BitVec 6) : Byte :=
  match offset.toNat with
  | 0x00 => Config.identity
  | 0x01 => Config.revision
  | 0x02 => hostStatus s.host
  | 0x03 => s.host.irqEnable.setWidth 8
  | 0x04 => s.irqStatus
  | 0x05 => s.host.cmd
  | 0x06 => s.host.arg0
  | 0x07 => s.host.arg1
  | 0x08 => statusCode s.host.status
  | 0x09 => lowByte s.host.ptr
  | 0x0A => highByte s.host.ptr
  | 0x0B => (windowRead (winTarget s.host.ptr) s).1
  | 0x0C => (windowRead (winTarget s.host.ptr) s).1
  | 0x10 => cytMode s.timer
  | 0x11 => s.timer.prescaler
  | 0x12 => lowByte s.timer.period
  | 0x13 => highByte s.timer.period
  | 0x14 => s.timer.window
  | 0x15 => cytStatus s.timer
  | 0x16 => lowByte s.timer.value
  | 0x17 => s.timer.valueLatch
  | 0x18 => lowByte s.timer.cycleCount
  | 0x19 => s.timer.countLatch
  | 0x1A => s.timer.early
  | 0x1B => schStatus s.schedule
  | 0x1C => lowByte s.schedule.changeovers
  | 0x1D => s.schedule.changeoversLatch
  | 0x3C => BitVec.ofNat 8 s.pool.free.length
  | 0x3D => BitVec.ofNat 8 s.events.entries.length
  | 0x3E => s.events.drops
  | 0x3F => s.pool.misses
  | n =>
    if 0x20 ≤ n ∧ n < 0x30 then lineBlockRead (s.engine .a) (n - 0x20)
    else if 0x30 ≤ n ∧ n < 0x3C then lineBlockRead (s.engine .b) (n - 0x30)
    else 0

end Sys2Proof.Machine
end

