-- ==== Sys2Proof/Machine/Dispatch.lean ====
section
/-! DEFINITION. The meaning of every command: one arm for each row of the table. -/

namespace Sys2Proof.Machine

def exec (i : Instr) (s : State) : Host.Outcome State Fault Refusal :=
  match i with
  | .cycleStart => Sys2Proof.Machine.execCycleStart s
  | .cycleStop => Sys2Proof.Machine.execCycleStop s
  | .cycleSingle => Sys2Proof.Machine.execCycleSingle s
  | .changeover => Sys2Proof.Machine.execChangeover s
  | .abortChangeover => Sys2Proof.Machine.execAbortChangeover s
  | .copyActive => Sys2Proof.Machine.execCopyActive s
  | .lineEnable => Sys2Proof.Machine.execLineEnable s
  | .lineDisable => Sys2Proof.Machine.execLineDisable s
  | .park => Sys2Proof.Machine.execPark s
  | .unpark => Sys2Proof.Machine.execUnpark s
  | .clearCounters => Sys2Proof.Machine.execClearCounters s
  | .publishImage => Sys2Proof.Machine.execPublishImage s
  | .markImage => Sys2Proof.Machine.execMarkImage s
  | .unmarkAll => Sys2Proof.Machine.execUnmarkAll s
  | .claim => Sys2Proof.Machine.execClaim s
  | .release => Sys2Proof.Machine.execRelease s
  | .flush => Sys2Proof.Machine.execFlush s
  | .post => Sys2Proof.Machine.execPost s
  | .cancel => Sys2Proof.Machine.execCancel s
  | .pop => Sys2Proof.Machine.execPop s
  | .softReset => Sys2Proof.Machine.execSoftReset s
  | .badCommand code => Sys2Proof.Machine.execBadCommand code s
  | .cytModeWrite v => Sys2Proof.Machine.execCytModeWrite v s
  | .cytPrescaleWrite v => Sys2Proof.Machine.execCytPrescaleWrite v s
  | .cytWindowWrite v => Sys2Proof.Machine.execCytWindowWrite v s
  | .cytPeriodLowWrite v => Sys2Proof.Machine.execCytPeriodLowWrite v s
  | .cytPeriodHighWrite v => Sys2Proof.Machine.execCytPeriodHighWrite v s
  | .divisorLowWrite l v => Sys2Proof.Machine.execDivisorLowWrite l v s
  | .divisorHighWrite l v => Sys2Proof.Machine.execDivisorHighWrite l v s
  | .lineSettingWrite l which v => Sys2Proof.Machine.execLineSettingWrite l which v s
  | .cytValueLowRead => Sys2Proof.Machine.execCytValueLowRead s
  | .cycleCountLowRead => Sys2Proof.Machine.execCycleCountLowRead s
  | .schChangeoversLowRead => Sys2Proof.Machine.execSchChangeoversLowRead s
  | .overrunCounterWrite l v => Sys2Proof.Machine.execOverrunCounterWrite l v s
  | .strayCounterWrite l v => Sys2Proof.Machine.execStrayCounterWrite l v s
  | .poolMissesWrite v => Sys2Proof.Machine.execPoolMissesWrite v s
  | .hostStatusWrite v => Sys2Proof.Machine.execHostStatusWrite v s
  | .irqStatusWrite v => Sys2Proof.Machine.execIrqStatusWrite v s
  | .irqEnableWrite v => Sys2Proof.Machine.execIrqEnableWrite v s
  | .winDataRead => Sys2Proof.Machine.execWinDataRead s
  | .winDataWrite v => Sys2Proof.Machine.execWinDataWrite v s
  | .winPeekRead => Sys2Proof.Machine.execWinPeekRead s
  | .winPeekWrite v => Sys2Proof.Machine.execWinPeekWrite v s
  | .registerWrite offset v => Sys2Proof.Machine.execRegisterWrite offset v s
  | .pinReset => Sys2Proof.Machine.execPinReset s
  | .resetRelease => Sys2Proof.Machine.execResetRelease s
  | .powerUp => Sys2Proof.Machine.execPowerUp s
  | .tick => Sys2Proof.Machine.execTick s
  | .periodEnd => Sys2Proof.Machine.execPeriodEnd s
  | .syncWindowExpiry => Sys2Proof.Machine.execSyncWindowExpiry s
  | .syncFallingEdge => Sys2Proof.Machine.execSyncFallingEdge s
  | .changeoverCheckEnd => Sys2Proof.Machine.execChangeoverCheckEnd s
  | .copyComplete => Sys2Proof.Machine.execCopyComplete s
  | .slotBegin l => Sys2Proof.Machine.execSlotBegin l s
  | .characterTransmitted l => Sys2Proof.Machine.execCharacterTransmitted l s
  | .receivedCharacter l byte head framing => Sys2Proof.Machine.execReceivedCharacter l byte head framing s
  | .falseStart l => Sys2Proof.Machine.execFalseStart l s
  | .replyWindowExpiry l => Sys2Proof.Machine.execReplyWindowExpiry l s
  | .characterGapExpiry l => Sys2Proof.Machine.execCharacterGapExpiry l s
  | .quietIdleExpiry l => Sys2Proof.Machine.execQuietIdleExpiry l s
  | .quietLimitExpiry l => Sys2Proof.Machine.execQuietLimitExpiry l s
  | .frameGapEnd l => Sys2Proof.Machine.execFrameGapEnd l s
  | .openSlotEnd l => Sys2Proof.Machine.execOpenSlotEnd l s
  | .acyclicStart l => Sys2Proof.Machine.execAcyclicStart l s
  | .startEdge l => Sys2Proof.Machine.execStartEdge l s
  | .rxReturnedTo1 l => Sys2Proof.Machine.execRxReturnedTo1 l s
  | .syncSeenHigh => Sys2Proof.Machine.execSyncSeenHigh s

end Sys2Proof.Machine
end

