-- ==== Sys2Proof/Machine/Step.lean ====
section
/-! DEFINITION. The step of the part, and the placing of a command in front of its queue. -/

namespace Sys2Proof.Machine

/-- One step: the command at the front of the queue is executed on the rest; with no command waiting one reference clock period passes
(log 2). -/
def step (s : State) : Host.Outcome State Fault Refusal :=
  match s.pending with
  | [] => .next (clockPeriod s)
  | c :: rest => exec c { s with pending := rest }

/-- The state with the command a word spells put in front of the queue; no word spells one (log 20). -/
def State.withFetchWord (s : State) (nbits w : Nat) : State :=
  match decodeTableWord nbits w with
  | some c => { s with pending := c :: s.pending }
  | none => s

end Sys2Proof.Machine
end

