-- ==== Sys2Proof/Safety.lean ====
section
/-! DEFINITION. What a safe run of the part is, and what is legal in each kind of its state, in the words that claims use. The spec gives
the part no behaviour that stops it, so a step that ends in a fault or a refusal is unsafe. -/

namespace Sys2Proof.Machine

/-! ## Runs -/

/-- A step that answers a next state. -/
def Safe (s : State) : Prop := ∃ t, step s = .next t

/-- The states reached from one by steps. -/
inductive Reaches : State → State → Prop where
  | refl (s : State) : Reaches s s
  | tail {s t u : State} : Reaches s t → step t = .next u → Reaches s u

/-- A run from a state is safe: every state it reaches makes a step. -/
def SafeRun (s : State) : Prop := ∀ t, Reaches s t → Safe t

/-! ## Commands and resets -/

/-- The three rows that act on a part held in reset (R165). -/
def isPinRow (c : Instr) : Prop := c = .pinReset ∨ c = .powerUp ∨ c = .resetRelease

/-- The rows after which every block is in its reset state (R165, R166): PIN_RESET, POWER_UP, SOFT_RESET, and the writes of other
rows that spell SOFT_RESET (log 16). -/
def isReset (c : Instr) : Prop :=
  c = .pinReset ∨ c = .powerUp ∨ c = .softReset ∨ c = .badCommand 0x7F ∨ c = .registerWrite 0x05 0x7F

/-- The Host Port after a taken command (R162): CMD the code, CMD_STATUS ACCEPTED, nothing driven on the data lines. -/
def HostPort.accepted (h : HostPort) (code : Byte) : HostPort := { h with data := none, cmd := code, status := .accepted }

/-- The Host Port after a refused command (R162): CMD the code, CMD_STATUS the answer, CMD_REFUSED set. -/
def HostPort.refused (h : HostPort) (code : Byte) (answer : CmdStatus) : HostPort :=
  { h with data := none, cmd := code, status := answer, cmdRefused := true }

/-- The state after a refused command: nothing but the Host Port's answer (R162). -/
def State.refused (s : State) (code : Byte) (answer : CmdStatus) : State := { s with host := s.host.refused code answer }

/-! ## Cycle Timer (sections 2.1 to 2.6) -/

/-- Every setting in its range; the value below the timer's own boundary, and 0 while no cycle runs; the sync state that the table of
section 2.6 gives mode and timer state; a SYNC pulse only while SYNC is an output and within the first tick of a cycle. -/
def Timer.Legal (t : Timer) : Prop :=
  100 ≤ t.period.toNat ∧ 1 ≤ t.window.toNat ∧ t.period.toNat + t.window.toNat ≤ 65535
  ∧ t.value.toNat < t.limit
  ∧ (t.cycleRunning = false → t.value = 0)
  ∧ (t.mode = .free → t.sync = .notUsed)
  ∧ (t.mode = .follow → (t.sync = .notUsed ↔ t.state = .stopped))
  ∧ (t.sync = .seeking → t.state = .running)
  ∧ (t.state = .single → t.mode = .free)
  ∧ (t.pulse = true → t.mode = .free ∧ t.syncOutEnable = true ∧ t.value = 0 ∧ t.state ≠ .stopped)

/-! ## Schedule Store (section 3.2, R39, R41) -/

/-- The ranges of section 3.2 that the checks 2 and 4 to 17 of R41 enforce on one entry, P being the period. -/
def Entry.Valid (e : Entry) (period : Half) : Prop :=
  (1 ≤ e.offset.toNat ∧ e.offset.toNat < period.toNat)
  ∧ ((1 ≤ e.kind.toNat ∧ e.kind.toNat ≤ 6) ∨ (8 ≤ e.kind.toNat ∧ e.kind.toNat ≤ 16))
  ∧ (if e.kind = kindBroadcast then e.station = 63
     else if e.kind = kindOpen then e.station = 0
     else 1 ≤ e.station.toNat ∧ e.station.toNat ≤ 62)
  ∧ e.requestLength.toNat ≤ 32
  ∧ ((e.kind = kindRead ∨ e.kind = kindStatus ∨ e.kind = kindResync) → e.requestLength = 0)
  ∧ (e.replyLength.toNat ≤ 32 ∨ e.replyLength = 255)
  ∧ e.image.toNat ≤ 63
  ∧ (e.mailbox.toNat ≤ 47 ∨ e.mailbox = 255)
  ∧ 1 ≤ e.reservation.toNat
  ∧ (1 ≤ e.replyWindow.toNat ∧ e.replyWindow.toNat ≤ 1023)
  ∧ e.retryLimit.toNat ≤ 3
  ∧ e.divider.toNat ≤ 7
  ∧ e.phase.toNat < 2 ^ e.divider.toNat

/-- A line's list: a count of at most 32, and below it valid entries with strictly rising offsets (R39, R41). -/
def SlotList.Valid (t : SlotList) (period : Half) : Prop :=
  t.count.toNat ≤ 32
  ∧ (∀ i : Fin 32, i.val < t.count.toNat → t.entries[i].Valid period)
  ∧ (∀ i j : Fin 32, i.val + 1 = j.val → j.val < t.count.toNat → t.entries[i].offset.toNat < t.entries[j].offset.toNat)

/-- Both lists of a bank are valid (R39). -/
def Bank.Valid (b : Bank) (period : Half) : Prop := SlotList.Valid b.a period ∧ SlotList.Valid b.b period

/-- The active bank is valid against P in force, and so is an armed pending bank (R39, R43); a check position is held in CHECKING only
(R40), and no copy runs in CHECKING or ARMED (R40, R47). -/
def State.ScheduleLegal (s : State) : Prop :=
  Bank.Valid s.schedule.activeBank s.timer.period
  ∧ (s.schedule.changeover = .armed → Bank.Valid s.schedule.pendingBank s.timer.period)
  ∧ (s.schedule.checkPos.isSome = true ↔ s.schedule.changeover = .checking)
  ∧ (s.schedule.copy.isSome = true → s.schedule.changeover = .none)

/-! ## Line engines (chapter 4) -/

/-- The outcomes of a failed attempt (R73). -/
def Outcome.Failed (o : Outcome) : Prop :=
  o = .timeout ∨ o = .check ∨ o = .broken ∨ o = .length ∨ o = .address ∨ o = .sequence ∨ o = .conflict

/-- Line settings in their ranges (section 4.1). -/
def Engine.SettingsLegal (e : Engine) : Prop :=
  e.divisor.toNat ≤ 4095
  ∧ (2 ≤ e.frameGap.toNat ∧ e.frameGap.toNat ≤ 63)
  ∧ (2 ≤ e.charGap.toNat ∧ e.charGap.toNat ≤ 15)
  ∧ (1 ≤ e.failThreshold.toNat ∧ e.failThreshold.toNat ≤ 15)
  ∧ 1 ≤ e.probeInterval.toNat

/-- The engine holds no notice, walk, slot, attempt, buffer, snapshot or request (R57, R80). -/
def Engine.HoldsNothing (e : Engine) : Prop :=
  e.notice = none ∧ e.next = none ∧ e.slot = none ∧ e.attempt = none ∧ e.held = none ∧ e.snapshot = none
  ∧ e.request = none ∧ e.failed = none

/-- What goes with each engine state (section 4.2, R57 to R80): OFF, and a line finishing the character of a LINE_DISABLE, hold
nothing; a character is on TX in TRANSMIT only; an attempt is held exactly in TRANSMIT, AWAIT, RECEIVE and QUIET, for the exchange
under way; a slot that waits is an OPEN slot; a request is served in an OPEN slot only; a buffer is held only within a slot, and none
for a BROADCAST (R66, R135); no slot or request has made more attempts than its retry limit and one; an OPEN slot itself makes no
attempt, substitutes nothing, has no arrival and takes no snapshot (R63); no reply is kept while the request is sent; and an OFF line has no
character in reception (R3). -/
def Engine.Legal (e : Engine) : Prop :=
  (e.state = .off → e.HoldsNothing ∧ e.disabling = false)
  ∧ (e.disabling = true → e.HoldsNothing ∧ e.state = .transmit)
  ∧ (e.tx.isSome = true ↔ e.state = .transmit)
  ∧ (e.attempt.isSome = true ↔ e.inFlight = true ∧ e.disabling = false)
  ∧ (e.slot = none → e.attempt = none ∧ e.held = none ∧ e.snapshot = none ∧ e.request = none ∧ e.failed = none)
  ∧ (e.next.isSome = true → e.state = .wait ∧ e.slot = none ∧ e.notice.isSome = true)
  ∧ (e.request.isSome = true → e.slot.any (·.isOpen) = true)
  ∧ (e.slot.any (·.isOpen) = true → e.request = none → e.attempt = none ∧ e.held = none ∧ e.failed = none)
  ∧ (e.state = .wait → e.held = none ∧ e.request = none ∧ e.failed = none ∧ (e.slot.isSome = true → e.slot.any (·.isOpen) = true))
  ∧ (e.state = .gap → e.failed = none → e.held = none ∧ e.request = none ∧ (e.slot.isSome = true → e.slot.any (·.isOpen) = true))
  ∧ (∀ o, e.failed = some o → e.state = .gap ∧ o.Failed)
  ∧ (∀ a, e.attempt = some a → ∃ x, e.exchange = some x ∧ a.station = x.station ∧ a.kind = x.kind
      ∧ a.replyWindow = x.replyWindow ∧ a.expected = x.expected)
  ∧ (∀ a, e.attempt = some a → e.state ≠ .transmit → a.kind ≠ kindBroadcast)
  ∧ (∀ a, e.attempt = some a → e.state = .receive → a.reply.isSome = true ∧ a.arrival.isSome = true)
  ∧ (∀ a, e.attempt = some a → e.state = .quiet → ∃ o, a.judged = some o ∧ o.Failed)
  ∧ (∀ c, e.slot = some c → c.attempts ≤ c.entry.retryLimit.toNat + 1)
  ∧ (∀ q, e.request = some q → q.attempts ≤ q.desc.retryLimit.toNat + 1)
  ∧ (∀ c, e.slot = some c → c.isOpen = true →
      c.attempts = 0 ∧ c.resync = false ∧ c.arrival = 0 ∧ c.afterBoundary = false ∧ e.snapshot = none)
  ∧ (∀ x, e.exchange = some x → x.kind = kindBroadcast → e.held = none)
  ∧ (∀ a, e.attempt = some a → e.state = .transmit → a.reply = none)
  ∧ (e.state = .off → e.rx.char = none)

/-! ## Station Table (R84, R89) -/

/-- ONLINE has fail count 0, SUSPECT at least 1; UNKNOWN and SUSPECT stay below the largest threshold; no fail count exceeds 15; the
countdown of an OFFLINE station lies from 1 to 255. -/
def Station.Legal (r : Station) : Prop :=
  r.failCount.toNat ≤ 15
  ∧ (r.health = .online → r.failCount = 0)
  ∧ (r.health = .suspect → 1 ≤ r.failCount.toNat ∧ r.failCount.toNat ≤ 14)
  ∧ (r.health = .unknown → r.failCount.toNat ≤ 14)
  ∧ (r.health = .offline → 1 ≤ r.probe.toNat)

/-- Every record of both lines is legal, and so are the settings its updates use. -/
def State.StationsLegal (s : State) : Prop :=
  ∀ l, (s.engine l).SettingsLegal ∧ ∀ i : Fin 62, (s.station l i).Legal

/-! ## Mailboxes (section 6.3, R108) -/

/-- The references and the fresh flag that go with a mailbox's state. -/
def Mailbox.Legal (m : Mailbox) : Prop :=
  match m.state with
  | .empty => m.current = none ∧ m.next = none ∧ m.fresh = false
  | .full => m.current.isSome = true ∧ m.next = none ∧ m.fresh = true
  | .claimed => m.current.isSome = true ∧ m.next = none ∧ m.fresh = false
  | .claimedNext => m.current.isSome = true ∧ m.next.isSome = true ∧ m.fresh = false

/-! ## Buffers (R100) -/

/-- Every place a buffer can be: the free list, the two attempt contexts, the mailboxes' positions, the event entries. -/
def State.bufferPlaces (s : State) : List (Fin 72) :=
  s.pool.free ++ (s.engine .a).held.toList ++ (s.engine .b).held.toList
    ++ s.mailboxes.toList.flatMap (fun m => m.current.toList ++ m.next.toList)
    ++ s.events.entries.filterMap (·.buffer)

/-- Each of the 72 buffers is in exactly one place (R100), with the engines and the mailboxes legal. -/
def State.BuffersLegal (s : State) : Prop :=
  s.bufferPlaces.Perm (List.finRange 72) ∧ (∀ l, (s.engine l).Legal) ∧ ∀ m : Fin 48, s.mailboxes[m].Legal

/-! ## Event Queue (R143, R144) and acyclic queues (R130) -/

/-- Entries and reservations never exceed 32; a line holds a reservation exactly while it has a request in progress; each acyclic
queue holds at most 4 requests; every request, queued or in progress, has passed the checks of POST (R129); the engines are legal. -/
def State.QueuesLegal (s : State) : Prop :=
  s.events.load ≤ 32 ∧ (∀ l, s.events.reserved.get l = (s.engine l).request.isSome)
  ∧ (∀ l, (s.acyclic.get l).queue.length ≤ 4) ∧ (∀ l, ∀ d ∈ (s.acyclic.get l).queue, d.valid = true)
  ∧ (∀ l q, (s.engine l).request = some q → q.desc.valid = true) ∧ ∀ l, (s.engine l).Legal

/-- The other line. -/
def otherLine (l : Line) : Line :=
  match l with
  | .a => .b
  | .b => .a

/-! ## Cycle begins and notices (R22, R23, R44, R58 to R60, R63, R79) -/

/-- An entry of a list is due in a cycle, in the words of R34 and R36. -/
def SlotList.IsDue (t : SlotList) (cycle : Half) (i : Fin 32) : Prop :=
  i.val < t.count.toNat ∧ cycle.toNat % 2 ^ t.entries[i].divider.toNat = t.entries[i].phase.toNat

/-- A notice ends this OPEN slot of the engine: it serves no request, and no frame gap of a request carries it (R63, log 11). -/
def Engine.EndsAtNotice (e : Engine) (c : Slot) : Prop :=
  e.slot = some c ∧ c.isOpen = true ∧ e.request = none ∧ c.carried = false ∧ (e.state = .wait ∨ e.state = .gap)

/-- The unbegun due entry at an index of the walk of the notice that the engine holds, which is of the store's present schedule (R58,
step 1; R38; R50). -/
def Engine.Unbegun (e : Engine) (sch : Schedule) (l : Line) (i : Fin 32) (m : Notice) : Prop :=
  e.notice = some m ∧ m.changeovers = sch.changeovers ∧ e.walk ≤ i.val ∧ (sch.activeBank.get l).IsDue m.cycle i

/-- What a notice does at a line (R58 to R60, R63, R79), `sch` being the store as the notice finds it and `old` the line's results: an OFF
engine, and one that is finishing a character for LINE_DISABLE, disregards it. Any other holds the new notice, its walk at the start, and
reads its first entry when it waits with no slot; an attempt in flight is counted as an overrun; a slot in progress goes on with no time
remaining, but an OPEN slot with no request ends OK; and the unbegun due entries of the old walk are SQUEEZED. The attempt, the line's
settings, its transmitter and receiver and all else of the engine are as they were. -/
def NoticeTaken (sch : Schedule) (period : Half) (l : Line) (n : Option Notice) (e e' : Engine) (old new : Vector SlotResult 32) :
    Prop :=
  if e.state = .off ∨ e.disabling = true then e' = e ∧ new = old
  else
    e' = { e with
      notice := n, walk := 0, next := e'.next, slot := e'.slot, snapshot := e'.snapshot
      overruns := if e.inFlight = true then satInc e.overruns else e.overruns }
    ∧ (∀ c, e.EndsAtNotice c → e'.slot = none ∧ e'.snapshot = none)
    ∧ ((∀ c, ¬ e.EndsAtNotice c) →
      e'.slot = e.slot.map (fun c => { c with noticeHeld := false }) ∧ e'.snapshot = e.snapshot)
    ∧ e'.next = (if e.state = .wait ∧ e'.slot = none then n.bind fun m => sch.entryRead period l m 0 else none)
    ∧ ∀ i : Fin 32,
      (∀ c, e.EndsAtNotice c → c.index = i → c.changeovers = sch.changeovers → new[i] = c.result .ok e.generation)
      ∧ ((∀ c, e.EndsAtNotice c → c.index = i → c.changeovers ≠ sch.changeovers) →
        (∀ m, e.Unbegun sch l i m → new[i] = { SlotResult.none with outcome := .squeezed, cycle := m.cycle })
        ∧ ((∀ m, ¬ e.Unbegun sch l i m) → new[i] = old[i]))

/-- The CYCLE_OVERRUN that a notice calls for at a line, when it finds an attempt in flight and the line's mask admits it (R79). -/
def overrunCalled (l : Line) (code : Byte) (e : Engine) : List Event :=
  match e.attempt, e.slot with
  | some a, some c =>
    if e.disabling = false ∧ (e.state = .transmit ∨ e.state = .await ∨ e.state = .receive ∨ e.state = .quiet)
        ∧ e.mask.cycleOverrun = true then
      [{ kind := .cycleOverrun, line := some l, station := a.station, code := code, cycle := c.cycle,
         entryIndex := BitVec.ofNat 8 c.index.val
         tag := match e.request with
           | some q => q.desc.tag
           | none => 0 }]
    else []
  | _, _ => []

/-- Events that come together are appended one after another, in some order (R143, log 5): each by the rule of R146, so with room for all
of them each stands in the queue. -/
def Appended (q : EventQueue) (called : List Event) (q' : EventQueue) : Prop :=
  ∃ order, order.Perm called ∧ q' = order.foldl EventQueue.append q
    ∧ (q.load + called.length ≤ 32 → q' = { q with entries := q.entries ++ order })

/-- What a cycle begin does (R22, R14, R17, R24; R126 for the images; R44 and R49 for the swap; R52, R58, R60, R63 and R79 for the engines
and their results), from state `s` with the timer `b` as it stands but for the begin itself; `own` is the timer's own event. All else
but the Host Port, of which each statement speaks, is as it was. -/
def CycleBegun (s : State) (b : Timer) (own : List Event) (t : State) : Prop :=
  t.timer = { b with
    value := 0, subTick := 0, cycleCount := s.timer.cycleCount + 1, cycleFlag := true,
    pulse := decide (b.mode = .free) && b.syncOutEnable }
  ∧ (∀ n : Fin 64, t.images.marked[n] = false ∧ t.images.images[n] =
      if s.images.marked[n] then
        { s.images.images[n] with live := s.images.images[n].staged, generation := s.images.images[n].generation + 1 }
      else s.images.images[n])
  ∧ t.schedule = (if s.schedule.changeover = .armed then
      { s.schedule with
        active := !s.schedule.active, changeovers := s.schedule.changeovers + 1, changeover := .none, lastSwapped := true
        results := t.schedule.results }
    else { s.schedule with results := t.schedule.results })
  ∧ (∀ l, NoticeTaken t.schedule b.period l
      (some { cycle := s.timer.cycleCount + 1, bank := t.schedule.active, changeovers := t.schedule.changeovers })
      (s.engine l) (t.engine l)
      (if s.schedule.changeover = .armed then Vector.replicate 32 SlotResult.none else s.schedule.results.get l)
      (t.schedule.results.get l))
  ∧ Appended s.events
      (own ++ (if s.schedule.changeover = .armed then
          [{ kind := .changeoverDone, cycle := s.timer.cycleCount + 1, code := if s.schedule.active = true then 0 else 1 }]
        else [])
        ++ overrunCalled .a 0 (s.engine .a) ++ overrunCalled .b 0 (s.engine .b))
      t.events
  ∧ t = { s with
      timer := t.timer, images := t.images, schedule := t.schedule, lines := t.lines, events := t.events, host := t.host
      choices := t.choices }

/-- What a stop boundary does (R23, R53, R59, R60, R63, R79), from state `s` with the timer `b` as it stands but for the boundary itself:
no swap and no publication. That the sub-tick count, which R23 only stops, stands at 0 then is the model's choice (log 26). -/
def CyclesEnded (s : State) (b : Timer) (t : State) : Prop :=
  t.timer = { b with
    state := .stopped, sync := if b.mode = .follow then .notUsed else b.sync, value := 0, subTick := 0, pulse := false }
  ∧ t.schedule = { s.schedule with results := t.schedule.results }
  ∧ (∀ l, NoticeTaken t.schedule b.period l none (s.engine l) (t.engine l) (s.schedule.results.get l) (t.schedule.results.get l))
  ∧ Appended s.events (overrunCalled .a 1 (s.engine .a) ++ overrunCalled .b 1 (s.engine .b)) t.events
  ∧ t = { s with
      timer := t.timer, schedule := t.schedule, lines := t.lines, events := t.events, choices := t.choices }

/-- No step of the present moment is still to be taken: no kept entry has been reached, no OPEN slot is at its end, no acyclic request
can start (log 8). -/
def State.Settled (s : State) : Prop := owes .a s = false ∧ owes .b s = false

end Sys2Proof.Machine
end

