-- ==== Sys2Proof/Certificates/Slice0/Obligations.lean ====
section
/-! DEFINITION. The statements for the provers. A title or docstring that names a log entry says that the statement, or the clause it
names, is the model's choice and not a rule of the spec. -/

open Sys2Proof Sys2Proof.Machine

/-! ## The machine -/

/-- A step takes the command at the front of the queue. That a part with no command waiting lets one reference clock period pass, and that
nothing passes while it is held in reset, is log 2 and R165. -/
def Obligations.StepRunsTheFrontCommand : Prop :=
  (∀ (c : Instr) (s : State), step { s with pending := c :: s.pending } = exec c s)
  ∧ (∀ s : State, s.pending = [] → step s = .next (clockPeriod s))
  ∧ ∀ s : State, s.inReset = true → clockPeriod s = s

/-- Every command, in every state, has a next state, and so has a step with no command waiting, so no run ever stops. That the spec gives
every command an effect, so that nothing stops the part, is log 22 (DEDUCED), and what an empty queue does is log 2: the statement is the
model's. -/
def Obligations.NoCommandEverStops : Prop :=
  (∀ (c : Instr) (s : State), ∃ t, exec c s = .next t) ∧ ∀ s : State, SafeRun s

/-- A command's effect is on everything but the queue, which belongs to its sender (log 21); the pins' samples to come are the outside
world's (log 10); a command only draws open choices (log 5); and only the reset rows hold the part or let it go (R165, log 3). The queue,
the samples and the count of choices are the model's own fields. -/
def Obligations.CommandsLeaveTheQueueAlone : Prop :=
  ∀ (c : Instr) (s t : State), exec c s = .next t →
    t.pending = s.pending ∧ t.inputs = s.inputs ∧ s.choices ≤ t.choices ∧ (t.inReset ≠ s.inReset → isPinRow c)

/-- While RESET is held low no access, no line event and no timer event has any effect (R165). -/
def Obligations.NothingActsWhileHeldInReset : Prop :=
  ∀ s : State, s.inReset = true → ∀ c : Instr, ¬ isPinRow c → exec c s = .next s

/-! ## Resets -/

/-- The reset column of section 11.1. -/
def Sys2Proof.Machine.resetColumn (offset : BitVec 6) : Byte :=
  match offset.toNat with
  | 0x00 => 0xB6 | 0x01 => 0x01 | 0x12 => 0xE8 | 0x13 => 0x03 | 0x14 => 0x04
  | 0x20 => 0x77 | 0x22 => 0x04 | 0x23 => 0x04 | 0x24 => 0x03 | 0x25 => 0x08 | 0x27 => 0x0F | 0x29 => 0xFF
  | 0x30 => 0x77 | 0x32 => 0x04 | 0x33 => 0x04 | 0x34 => 0x03 | 0x35 => 0x08 | 0x37 => 0x0F | 0x39 => 0xFF
  | 0x3C => 0x48 | _ => 0x00

/-- What every direct register reads after a pin reset, and the three that read otherwise after a soft reset (section 11.1). -/
def Obligations.RegistersReadTheirResetValues : Prop :=
  (∀ offset : BitVec 6, directRead State.reset offset = resetColumn offset)
  ∧ ∀ t, exec .softReset State.reset = .next t →
      directRead t 0x02 = 0x80 ∧ directRead t 0x05 = 0x7F ∧ directRead t 0x08 = 0x01
      ∧ ∀ offset : BitVec 6, offset ≠ 0x02 → offset ≠ 0x05 → offset ≠ 0x08 → directRead t offset = resetColumn offset

/-- The reset rows (R165 to R167): every block in its reset state, at a pin reset and at power-up held there, at SOFT_RESET running on with
the soft reset's marks; DE released, TX at 1, SYNC not driven and the interrupt line released. The queue of commands and the samples to
come are not the part's and stay. That RESET_RELEASE ends a power-on hold too is log 3. -/
def Obligations.ResetRowsTakeTheResetState : Prop :=
  ∀ s : State,
    exec .pinReset s = .next { State.reset with
      inputs := s.inputs, choices := s.choices, pending := s.pending, inReset := true }
    ∧ exec .powerUp s = .next { State.reset with
      inputs := s.inputs, choices := s.choices, pending := s.pending, inReset := true }
    ∧ exec .resetRelease s = .next { s with inReset := false }
    ∧ (s.inReset = false → exec .softReset s = .next { State.reset with
        inputs := s.inputs, choices := s.choices, pending := s.pending,
        host := { HostPort.reset with cause := .soft, cmd := 0x7F, status := .accepted } })
    ∧ ∀ c t, (c = .pinReset ∨ c = .powerUp ∨ (c = .softReset ∧ s.inReset = false)) → exec c s = .next t →
        (∀ l, (t.engine l).txPin = true ∧ (t.engine l).dePin = false) ∧ t.syncPin = none ∧ t.irqDriven = false

/-- The state after reset is legal in every kind of its state. -/
def Obligations.ResetStateIsLegal : Prop :=
  State.reset.timer.Legal ∧ State.reset.ScheduleLegal ∧ State.reset.StationsLegal ∧ State.reset.BuffersLegal
  ∧ State.reset.QueuesLegal

/-! ## Cycle Timer (chapter 2) -/

/-- CYCLE_START, CYCLE_SINGLE and CYCLE_STOP (R18 to R20). The order of the events of one boundary is log 5; that an OPEN slot
carried into a request's frame gap outlasts a notice is log 11. -/
def Obligations.CycleCommandsStartAndStop : Prop :=
  ∀ s : State, s.inReset = false →
    (s.timer.state = .stopped → s.timer.mode = .free →
      (∃ t, exec .cycleStart s = .next t ∧ CycleBegun s { s.timer with state := .running } [] t
        ∧ t.host = s.host.accepted 0x01)
      ∧ ∃ t, exec .cycleSingle s = .next t ∧ CycleBegun s { s.timer with state := .single } [] t
        ∧ t.host = s.host.accepted 0x03)
    ∧ (s.timer.state = .stopped → s.timer.mode = .follow →
      exec .cycleStart s = .next { s with
        timer := { s.timer with state := .running, sync := .seeking, early := 0, value := 0, prevSync := none }
        host := s.host.accepted 0x01 })
    ∧ (s.timer.state = .stopping →
      exec .cycleStart s = .next { s with timer := { s.timer with state := .running }, host := s.host.accepted 0x01 })
    ∧ (s.timer.state = .running ∨ s.timer.state = .single → exec .cycleStart s = .next (s.refused 0x01 .wrongState))
    ∧ (¬ (s.timer.state = .stopped ∧ s.timer.mode = .free) → exec .cycleSingle s = .next (s.refused 0x03 .wrongState))
    ∧ (s.timer.state = .running → s.timer.sync = .seeking →
      exec .cycleStop s = .next { s with
        timer := { s.timer with state := .stopped, sync := .notUsed }, host := s.host.accepted 0x02 })
    ∧ ((s.timer.state = .running ∧ s.timer.sync ≠ .seeking) ∨ s.timer.state = .single →
      exec .cycleStop s = .next { s with timer := { s.timer with state := .stopping }, host := s.host.accepted 0x02 })
    ∧ (s.timer.state = .stopping → exec .cycleStop s = .next { s with host := s.host.accepted 0x02 })
    ∧ (s.timer.state = .stopped → exec .cycleStop s = .next (s.refused 0x02 .wrongState))

/-- When a cycle runs (R14), and the value at which the timer makes a boundary of its own (R21, R27, R28). -/
def Sys2Proof.Machine.CyclesRunToTheirLimit : Prop :=
  ∀ t : Timer,
    (t.cycleRunning = true ↔ t.state ≠ .stopped ∧ t.sync ≠ .seeking)
    ∧ (t.sync = .locked → t.limit = t.period.toNat + t.window.toNat) ∧ (t.sync ≠ .locked → t.limit = t.period.toNat)

/-- The level that the part drives on SYNC (R17): in FREE mode with output enable on, 0 during the cycle-start pulse and 1 otherwise, so 1 in
STOPPED; it drives none in FOLLOW mode, with output enable off, or in reset (R165). -/
def Sys2Proof.Machine.SyncIsDriven : Prop :=
  ∀ s : State,
    (s.inReset = true ∨ s.timer.mode = .follow ∨ s.timer.syncOutEnable = false → s.syncPin = none)
    ∧ (s.inReset = false → s.timer.mode = .free → s.timer.syncOutEnable = true →
      (s.timer.pulse = true → s.syncPin = some false) ∧ (s.timer.pulse = false → s.syncPin = some true)
      ∧ (s.timer.Legal → s.timer.state = .stopped → s.syncPin = some true))

/-- TICK below the timer's own boundary advances the value by one and ends the SYNC pulse, which a cycle begin starts (CycleBegun); it does
nothing while no cycle runs (R14, R17). What SYNC shows of the pulse is said by mode and output enable. That the moment's other steps come
before a tick is log 8. -/
def Obligations.TickAdvancesTheValue : Prop :=
  CyclesRunToTheirLimit ∧ SyncIsDriven
  ∧ ∀ s : State, s.inReset = false →
    (s.timer.cycleRunning = false → exec .tick s = .next s)
    ∧ (s.Settled → s.timer.cycleRunning = true → s.timer.value.toNat + 1 < s.timer.limit →
      exec .tick s = .next { s with
        timer := { s.timer with value := s.timer.value + 1, subTick := 0, pulse := false } })

/-- The value reaching P in FREE mode or in HOLDOVER (R21, R28): a cycle begin in RUNNING, a stop boundary in STOPPING and SINGLE.
PERIOD_END and the tick that completes it are the same moment (log 8). The order of the events of one boundary is log 5; that an OPEN slot
carried into a request's frame gap outlasts a notice is log 11; that a stop boundary leaves the sub-tick count at 0 is log 26. -/
def Obligations.PeriodEndBeginsOrStops : Prop :=
  ∀ (s : State) (c : Instr), c = .periodEnd ∨ c = .tick → s.inReset = false → s.Settled →
    s.timer.cycleRunning = true → s.timer.sync ≠ .locked → s.timer.value.toNat + 1 = s.timer.period.toNat →
    (s.timer.state = .running → ∃ t, exec c s = .next t ∧ CycleBegun s s.timer [] t ∧ t.host = s.host)
    ∧ (s.timer.state = .stopping ∨ s.timer.state = .single → ∃ t, exec c s = .next t ∧ CyclesEnded s s.timer t)

/-- The value reaching P + W in LOCKED (R27): a cycle begin, HOLDOVER and SYNC_LOST in RUNNING; in STOPPING a stop boundary without
SYNC_LOST. SYNC_WINDOW_EXPIRY and the tick that completes it are the same moment (log 8). The order of the events of one boundary is log 5;
that an OPEN slot carried into a request's frame gap outlasts a notice is log 11; that a stop boundary leaves the sub-tick count at 0 is
log 26. -/
def Obligations.WindowExpiryLosesSync : Prop :=
  ∀ (s : State) (c : Instr), c = .syncWindowExpiry ∨ c = .tick → s.inReset = false → s.Settled → s.timer.sync = .locked →
    s.timer.value.toNat + 1 = s.timer.period.toNat + s.timer.window.toNat →
    (s.timer.state = .running → ∃ t, exec c s = .next t ∧ CycleBegun s { s.timer with sync := .holdover }
        [{ kind := .syncLost, cycle := s.timer.cycleCount + 1 }] t
      ∧ t.host = s.host
      ∧ (s.events.load + 4 ≤ 32 →
          ({ kind := .syncLost, cycle := s.timer.cycleCount + 1 } : Event)
            ∈ t.events.entries.drop s.events.entries.length))
    ∧ (s.timer.state = .stopping → ∃ t, exec c s = .next t ∧ CyclesEnded s s.timer t)

/-- SYNC_SEEN_HIGH and SYNC_FALLING_EDGE by sync state (R17, R25, R26, R28). That an edge is also remembered as a sample at 0 is the meaning
of the previous sample (R17). The order of the events of one boundary is log 5; that an OPEN slot carried into a request's frame gap
outlasts a notice is log 11; that a stop boundary leaves the sub-tick count at 0 is log 26. -/
def Obligations.SyncSamplesActBySyncState : Prop :=
  ∀ s : State, s.inReset = false →
    (s.timer.mode = .follow →
      exec .syncSeenHigh s = .next { s with timer := { s.timer with prevSync := some true } })
    ∧ (s.timer.mode = .free → exec .syncSeenHigh s = .next s ∧ exec .syncFallingEdge s = .next s)
    ∧ (s.timer.prevSync ≠ some true → exec .syncFallingEdge s = .next s)
    ∧ (s.timer.mode = .follow → s.timer.prevSync = some true → s.timer.state ≠ .stopped →
      (s.timer.sync = .seeking → ∃ t, exec .syncFallingEdge s = .next t
        ∧ CycleBegun s { s.timer with sync := .locked, prevSync := some false } [] t ∧ t.host = s.host)
      ∧ (s.timer.sync = .locked → s.timer.value.toNat + s.timer.window.toNat < s.timer.period.toNat →
        exec .syncFallingEdge s = .next { s with
          timer := { s.timer with prevSync := some false, early := satInc s.timer.early } })
      ∧ (s.timer.sync = .locked → s.timer.period.toNat ≤ s.timer.value.toNat + s.timer.window.toNat →
        (s.timer.state = .running → ∃ t, exec .syncFallingEdge s = .next t
          ∧ CycleBegun s { s.timer with prevSync := some false } [] t ∧ t.host = s.host)
        ∧ (s.timer.state = .stopping → ∃ t, exec .syncFallingEdge s = .next t
          ∧ CyclesEnded s { s.timer with prevSync := some false } t))
      ∧ (s.timer.sync = .holdover →
        (s.timer.state = .running → ∃ t, exec .syncFallingEdge s = .next t
          ∧ CycleBegun s { s.timer with sync := .locked, prevSync := some false }
            [{ kind := .syncRegained, cycle := s.timer.cycleCount + 1 }] t ∧ t.host = s.host
          ∧ (s.events.load + 4 ≤ 32 →
              ({ kind := .syncRegained, cycle := s.timer.cycleCount + 1 } : Event)
                ∈ t.events.entries.drop s.events.entries.length))
        ∧ (s.timer.state = .stopping → ∃ t, exec .syncFallingEdge s = .next t
          ∧ CyclesEnded s { s.timer with prevSync := some false } t)))

/-- CYT_MODE_WRITE, CYT_PRESCALE_WRITE and CYT_WINDOW_WRITE (R15, R168): taken in STOPPED, in range; else ignored with SET_LOCKED. -/
def Obligations.TimerSettingsAreWrittenWhileStopped : Prop :=
  ∀ (s : State) (v : Byte), s.inReset = false →
    (s.timer.state = .stopped →
      exec (.cytModeWrite v) s = .next { s with
        timer := { s.timer with mode := if v.getLsbD 0 then .follow else .free, syncOutEnable := v.getLsbD 1 }
        host := { s.host with data := none } }
      ∧ exec (.cytPrescaleWrite v) s = .next { s with
        timer := { s.timer with prescaler := v }, host := { s.host with data := none } })
    ∧ (s.timer.state = .stopped → v ≠ 0 → s.timer.period.toNat + v.toNat ≤ 65535 →
      exec (.cytWindowWrite v) s = .next { s with
        timer := { s.timer with window := v }, host := { s.host with data := none } })
    ∧ (s.timer.state ≠ .stopped ∨ v = 0 ∨ 65535 < s.timer.period.toNat + v.toNat →
      exec (.cytWindowWrite v) s = .next { s with host := { s.host with data := none, setLocked := true } })
    ∧ (s.timer.state ≠ .stopped →
      exec (.cytModeWrite v) s = .next { s with host := { s.host with data := none, setLocked := true } }
      ∧ exec (.cytPrescaleWrite v) s = .next { s with host := { s.host with data := none, setLocked := true } })

/-- The six conditions of R16 on a candidate period. -/
def Sys2Proof.Machine.PeriodTakes (s : State) (candidate : Half) : Prop :=
  s.timer.state = .stopped
  ∧ (100 ≤ candidate.toNat ∧ candidate.toNat ≤ 65535)
  ∧ candidate.toNat + s.timer.window.toNat ≤ 65535
  ∧ (∀ (l : Line) (i : Fin 32), i.val < (s.schedule.activeBank.get l).count.toNat →
      (s.schedule.activeBank.get l).entries[i].offset.toNat < candidate.toNat)
  ∧ (s.schedule.changeover = .armed → ∀ (l : Line) (i : Fin 32), i.val < (s.schedule.pendingBank.get l).count.toNat →
      (s.schedule.pendingBank.get l).entries[i].offset.toNat < candidate.toNat)
  ∧ s.schedule.changeover ≠ .checking

/-- The period write (R16): its six conditions decide it, the holding byte keeps the low byte either way, reads return P in force, and
after reset a lone high byte of 0x03 writes 1000 again. -/
def Obligations.PeriodWriteObeysSixConditions : Prop :=
  (∀ (s : State) (v : Byte), s.inReset = false →
    exec (.cytPeriodLowWrite v) s = .next { s with
      timer := { s.timer with periodHold := v }, host := { s.host with data := none } }
    ∧ (PeriodTakes s (v ++ s.timer.periodHold) →
      exec (.cytPeriodHighWrite v) s = .next { s with
        timer := { s.timer with period := v ++ s.timer.periodHold }, host := { s.host with data := none } })
    ∧ (¬ PeriodTakes s (v ++ s.timer.periodHold) →
      exec (.cytPeriodHighWrite v) s = .next { s with host := { s.host with data := none, setLocked := true } }))
  ∧ (∀ s : State, directRead s 0x13 ++ directRead s 0x12 = s.timer.period)
  ∧ (∀ s t : State, s.inReset = false →
      (exec .softReset s = .next t ∨ exec .pinReset s = .next t) → t.timer.periodHold = 0xE8 ∧ t.timer.period = 1000)
  ∧ (0x03 : Byte) ++ (0xE8 : Byte) = (1000 : BitVec 16)

/-- The reads of two-byte counts (R29, R45): the low byte is answered and the high byte goes into the register's own latch, from which, in
every state, a read of the high byte is answered. -/
def Obligations.LowByteReadsLatchTheHighByte : Prop :=
  (∀ s : State, directRead s 0x17 = s.timer.valueLatch ∧ directRead s 0x19 = s.timer.countLatch
    ∧ directRead s 0x1D = s.schedule.changeoversLatch)
  ∧ ∀ s : State, s.inReset = false →
    (∃ t, exec .cytValueLowRead s = .next t ∧ directRead t 0x17 ++ directRead s 0x16 = s.timer.value
      ∧ t = { s with timer := { s.timer with valueLatch := directRead t 0x17 }
                     host := { s.host with data := some (directRead s 0x16) } })
    ∧ (∃ t, exec .cycleCountLowRead s = .next t ∧ directRead t 0x19 ++ directRead s 0x18 = s.timer.cycleCount
      ∧ t = { s with timer := { s.timer with countLatch := directRead t 0x19 }
                     host := { s.host with data := some (directRead s 0x18) } })
    ∧ ∃ t, exec .schChangeoversLowRead s = .next t ∧ directRead t 0x1D ++ directRead s 0x1C = s.schedule.changeovers
      ∧ t = { s with schedule := { s.schedule with changeoversLatch := directRead t 0x1D }
                     host := { s.host with data := some (directRead s 0x1C) } }

/-- Every step keeps the timer legal (section 2.2, section 2.6, R14, R17, R21, R26). -/
def Obligations.TimerStaysLegal : Prop :=
  ∀ s t : State, s.timer.Legal → step s = .next t → t.timer.Legal

/-- The cycle count changes only at a cycle begin or a reset (R22), and the active bank only at a swap or a reset (R32, R44); the
active bank's contents never change while it is active (R33). -/
def Obligations.CountAndActiveBankChangeOnlyAtBegins : Prop :=
  ∀ (c : Instr) (s t : State), exec c s = .next t → ¬ isReset c →
    (t.timer.cycleCount ≠ s.timer.cycleCount →
      t.timer.cycleCount = s.timer.cycleCount + 1 ∧ t.timer.value = 0 ∧ t.timer.cycleFlag = true
      ∧ ∀ n : Fin 64, t.images.marked[n] = false)
    ∧ (t.schedule.active ≠ s.schedule.active →
      s.schedule.changeover = .armed ∧ t.schedule.changeover = .none
      ∧ t.schedule.changeovers = s.schedule.changeovers + 1 ∧ t.timer.cycleCount = s.timer.cycleCount + 1
      ∧ t.schedule.activeBank = s.schedule.pendingBank)
    ∧ (t.schedule.active = s.schedule.active → t.schedule.activeBank = s.schedule.activeBank)

/-! ## Schedule Store (chapter 3) -/

/-- CHANGEOVER, COPY_ACTIVE and ABORT_CHANGEOVER by changeover state, copy and last changeover end (R40, R46, R47). -/
def Obligations.ChangeoverCommandsFollowTheTable : Prop :=
  ∀ s : State, s.inReset = false →
    (s.schedule.changeover = .none → s.schedule.copy = none →
      exec .changeover s = .next { s with
        schedule := { s.schedule with changeover := .checking, checkPos := some { line := .a, done := 0 }, age := 0 }
        host := s.host.accepted 0x10 }
      ∧ exec .copyActive s = .next { s with
        schedule := { s.schedule with copy := some 0, age := 0 }, host := s.host.accepted 0x12 })
    ∧ (s.schedule.changeover ≠ .none ∨ s.schedule.copy.isSome = true →
      exec .changeover s = .next (s.refused 0x10 .busy) ∧ exec .copyActive s = .next (s.refused 0x12 .busy))
    ∧ (s.schedule.changeover = .checking →
      exec .abortChangeover s = .next { s with
        schedule := { s.schedule with changeover := .none, checkPos := none, lastSwapped := false }
        host := s.host.accepted 0x11 })
    ∧ (s.schedule.changeover = .armed →
      exec .abortChangeover s = .next { s with
        schedule := { s.schedule with changeover := .none, lastSwapped := false }, host := s.host.accepted 0x11 })
    ∧ (s.schedule.changeover = .none →
      exec .abortChangeover s = .next (s.refused 0x11 (if s.schedule.lastSwapped then .tooLate else .wrongState)))

/-- The table of R41: an entry fails the check of a number. Checks 5 to 7 are written with the ranges the table names. -/
def Sys2Proof.Machine.Entry.FailsCheck (e : Entry) (period : Half) (before : Option Half) (number : Nat) : Prop :=
  match number with
  | 2 => e.offset = 0 ∨ period.toNat ≤ e.offset.toNat
  | 3 => ∃ b, before = some b ∧ e.offset.toNat ≤ b.toNat
  | 4 => e.kind = 0 ∨ e.kind = 7 ∨ 16 < e.kind.toNat
  | 5 => (e.kind = 6 ∧ e.station ≠ 63) ∨ (e.station = 63 ∧ e.kind ≠ 6)
  | 6 => e.kind ≠ 16 ∧ e.kind ≠ 6 ∧ ¬ (1 ≤ e.station.toNat ∧ e.station.toNat ≤ 62)
  | 7 => e.kind = 16 ∧ e.station ≠ 0
  | 8 => 32 < e.requestLength.toNat
  | 9 => (e.kind = 1 ∨ e.kind = 4 ∨ e.kind = 5) ∧ e.requestLength ≠ 0
  | 10 => 32 < e.replyLength.toNat ∧ e.replyLength ≠ 255
  | 11 => 64 ≤ e.image.toNat
  | 12 => 47 < e.mailbox.toNat ∧ e.mailbox ≠ 255
  | 13 => e.reservation = 0
  | 14 => ¬ (1 ≤ e.replyWindow.toNat ∧ e.replyWindow.toNat ≤ 1023)
  | 15 => 3 < e.retryLimit.toNat
  | 16 => 7 < e.divider.toNat
  | 17 => 2 ^ e.divider.toNat ≤ e.phase.toNat
  | _ => False

/-- The offset of the entry at the index before, none at index 0 (R41, check 3). -/
def Sys2Proof.Machine.SlotList.offsetBefore (t : SlotList) (i : Fin 32) : Option Half :=
  if h : 0 < i.val then some (t.entries[i.val - 1]'(by omega)).offset else none

/-- A failure is the first one of a line's list: its count fails check 1, or an entry below the count fails the check of the failure's
number and no check of a smaller number, and no entry before it fails any. -/
def Sys2Proof.Machine.SlotList.FirstFailure (t : SlotList) (period : Half) (f : CheckFailure) : Prop :=
  (32 < t.count.toNat ∧ f.reason = 1 ∧ f.index = 255 ∧ f.station = 0)
  ∨ (t.count.toNat ≤ 32 ∧ ∃ i : Fin 32, i.val < t.count.toNat ∧ f.index = BitVec.ofNat 8 i.val
      ∧ f.station = t.entries[i].station
      ∧ t.entries[i].FailsCheck period (t.offsetBefore i) f.reason.toNat
      ∧ (∀ n < f.reason.toNat, ¬ t.entries[i].FailsCheck period (t.offsetBefore i) n)
      ∧ ∀ j : Fin 32, j.val < i.val → ∀ n, ¬ t.entries[j].FailsCheck period (t.offsetBefore j) n)

/-- The check finds no failure exactly in a valid bank, and otherwise finds the first: line A before line B, the count before the entries,
the entries by index, an entry's checks by number (R39, R41). -/
def Obligations.CheckFindsTheFirstFailure : Prop :=
  ∀ (b : Bank) (period : Half),
    (bankCheck b period = none ↔ Bank.Valid b period)
    ∧ ∀ f, bankCheck b period = some f →
        (b.get f.line).FirstFailure period f ∧ (f.line = .b → SlotList.Valid b.a period)

/-- CHANGEOVER_CHECK_END (R42, R43) and COPY_COMPLETE (R47): ARMED or refused with the first failure; the pending bank equal to the active
one, with COPY_DONE. The check's speed and the copy's are log 7 and log 6; an end of what is not under way has no effect (log 1). -/
def Obligations.ChecksAndCopiesEnd : Prop :=
  ∀ s : State, s.inReset = false →
    (s.schedule.changeover ≠ .checking → exec .changeoverCheckEnd s = .next s)
    ∧ (s.schedule.changeover = .checking → Bank.Valid s.schedule.pendingBank s.timer.period →
      exec .changeoverCheckEnd s = .next { s with
        schedule := { s.schedule with changeover := .armed, checkPos := none } })
    ∧ (s.schedule.changeover = .checking → ¬ Bank.Valid s.schedule.pendingBank s.timer.period →
      ∃ f, bankCheck s.schedule.pendingBank s.timer.period = some f
        ∧ exec .changeoverCheckEnd s = .next { s with
          schedule := { s.schedule with changeover := .none, checkPos := none, lastSwapped := false }
          events := s.events.append
            { kind := .changeoverRefused, line := some f.line, station := f.station, code := f.reason,
              cycle := s.timer.cycleCount, entryIndex := f.index } })
    ∧ (s.schedule.copy = none → exec .copyComplete s = .next s)
    ∧ (s.schedule.copy.isSome = true → ∃ t, exec .copyComplete s = .next t
      ∧ t.schedule.pendingBank = s.schedule.activeBank ∧ t.schedule.activeBank = s.schedule.activeBank
      ∧ t.schedule = { s.schedule with bank0 := t.schedule.bank0, bank1 := t.schedule.bank1, copy := none }
      ∧ t = { s with
          schedule := t.schedule
          events := s.events.append { kind := .copyDone, cycle := s.timer.cycleCount } })

/-- Due entries and entry reads (R36 to R38): the pattern runs on unbroken across the wrap of the cycle count; a read answers the first due
entry at or above the index named, from the active bank, with the offset of the next due entry or the period as its budget end, and nothing
for a notice older than the last swap. In a valid bank every budget holds a tick (R39). -/
def Obligations.EntryReadAnswersFirstDueAndBudget : Prop :=
  (∀ (e : Entry) (cycle : Half),
    (e.dueIn cycle = true ↔ cycle.toNat % 2 ^ e.divider.toNat = e.phase.toNat)
    ∧ (e.divider = 0 → e.phase = 0 → e.dueIn cycle = true)
    ∧ (e.divider.toNat ≤ 7 → e.dueIn (cycle + BitVec.ofNat 16 (2 ^ e.divider.toNat)) = e.dueIn cycle))
  ∧ ∀ (sch : Schedule) (period : Half) (l : Line) (n : Notice) (start : Nat),
    let t := sch.activeBank.get l
    (n.changeovers ≠ sch.changeovers → sch.entryRead period l n start = none)
    ∧ (n.changeovers = sch.changeovers →
      (sch.entryRead period l n start = none → ∀ i : Fin 32, start ≤ i.val → ¬ t.IsDue n.cycle i)
      ∧ ∀ r, sch.entryRead period l n start = some r →
          start ≤ r.index.val ∧ t.IsDue n.cycle r.index ∧ r.entry = t.entries[r.index]
          ∧ (∀ i : Fin 32, start ≤ i.val → i.val < r.index.val → ¬ t.IsDue n.cycle i)
          ∧ ((∃ j : Fin 32, r.index.val < j.val ∧ t.IsDue n.cycle j ∧ r.budgetEnd = t.entries[j].offset
                ∧ ∀ k : Fin 32, r.index.val < k.val → k.val < j.val → ¬ t.IsDue n.cycle k)
              ∨ (r.budgetEnd = period ∧ ∀ j : Fin 32, r.index.val < j.val → ¬ t.IsDue n.cycle j))
          ∧ (SlotList.Valid t period → r.entry.offset.toNat < r.budgetEnd.toNat))

/-- Every step keeps the active bank valid against the period in force, and an armed pending bank too (R39, R43). -/
def Obligations.ScheduleStaysLegal : Prop :=
  ∀ s t : State, s.ScheduleLegal → step s = .next t → t.ScheduleLegal

/-! ## Line engines: commands and settings (sections 4.1, 4.3 and 4.8) -/

/-- The settings and counters of a line are as they were. -/
def Sys2Proof.Machine.Engine.SameSettings (e e' : Engine) : Prop :=
  e'.divisor = e.divisor ∧ e'.divisorHold = e.divisorHold ∧ e'.frameGap = e.frameGap ∧ e'.charGap = e.charGap
  ∧ e'.failThreshold = e.failThreshold ∧ e'.probeInterval = e.probeInterval ∧ e'.echoCheck = e.echoCheck
  ∧ e'.mask = e.mask ∧ e'.overruns = e.overruns ∧ e'.strays = e.strays

/-- What an argument byte or an address names (R82, R162, section 10.4): 0 is line A and 1 line B, and every other byte is no line; the
addresses 1 to 62 have a station record, and 0 and 63 and all above have none; 0 to 47 are the mailboxes, and every other byte none. -/
def Sys2Proof.Machine.ArgumentsName : Prop :=
  ∀ v : Byte,
    ((lineArg v = some .a ↔ v = 0) ∧ (lineArg v = some .b ↔ v = 1) ∧ (lineArg v = none ↔ 2 ≤ v.toNat))
    ∧ ((∀ i : Fin 62, stationIx v = some i ↔ v.toNat = i.val + 1) ∧ (stationIx v = none ↔ v.toNat = 0 ∨ 63 ≤ v.toNat))
    ∧ (∀ m : Fin 48, mailboxArg v = some m ↔ v.toNat = m.val) ∧ (mailboxArg v = none ↔ 48 ≤ v.toNat)

/-- LINE_ENABLE (R57): an OFF line waits, holding nothing, its receiver fresh and no frame gap pending; any other line is refused, and so is
an argument that names no line. Which bytes name a line, a station record and a mailbox is said for every byte (R82, R162). -/
def Obligations.LineEnableStartsAnOffLine : Prop :=
  ArgumentsName
  ∧ ∀ s : State, s.inReset = false →
    (lineArg s.host.arg0 = none → exec .lineEnable s = .next (s.refused 0x20 .badArgument))
    ∧ ∀ l, lineArg s.host.arg0 = some l →
      ((s.engine l).state ≠ .off → exec .lineEnable s = .next (s.refused 0x20 .wrongState))
      ∧ ((s.engine l).state = .off → ∃ t, exec .lineEnable s = .next t
        ∧ (t.engine l).state = .wait ∧ (t.engine l).HoldsNothing ∧ (t.engine l).disabling = false
        ∧ (t.engine l).tx = none ∧ (t.engine l).rx = { prev := none, char := none }
        ∧ (s.engine l).SameSettings (t.engine l) ∧ t.engine (otherLine l) = s.engine (otherLine l)
        ∧ t = { s with lines := t.lines, host := s.host.accepted 0x20 })

/-- LINE_DISABLE (R80, R140): the buffer goes back to the pool, the request ends ABORTED into its reserved event without a buffer, the
slot's result is ABORTED; the line is OFF at once, or in TRANSMIT when the character being sent has ended. Stations, mailboxes, images and
acyclic queues are as they were. -/
def Obligations.LineDisableTearsTheLineDown : Prop :=
  ∀ s : State, s.inReset = false →
    (lineArg s.host.arg0 = none → exec .lineDisable s = .next (s.refused 0x21 .badArgument))
    ∧ ∀ l, lineArg s.host.arg0 = some l →
      ((s.engine l).state = .off → exec .lineDisable s = .next (s.refused 0x21 .wrongState))
      ∧ ((s.engine l).state ≠ .off → (s.engine l).disabling = true →
        exec .lineDisable s = .next { s with host := s.host.accepted 0x21 })
      ∧ ((s.engine l).state ≠ .off → (s.engine l).disabling = false → (s.engine l).Legal →
        ∃ t, exec .lineDisable s = .next t
        ∧ (t.engine l).HoldsNothing ∧ (s.engine l).SameSettings (t.engine l)
        ∧ ((s.engine l).state = .transmit →
            (t.engine l).state = .transmit ∧ (t.engine l).disabling = true ∧ (t.engine l).tx = (s.engine l).tx)
        ∧ ((s.engine l).state ≠ .transmit →
            (t.engine l).state = .off ∧ (t.engine l).disabling = false ∧ (t.engine l).tx = none)
        ∧ t.engine (otherLine l) = s.engine (otherLine l)
        ∧ t.pool = { s.pool with
            free := s.pool.free ++ (s.engine l).held.toList
            episode := s.pool.episode && (s.engine l).held.isNone }
        ∧ (∀ c, (s.engine l).slot = some c →
            t.schedule = s.schedule.writeResult l c.index c.changeovers (c.result .aborted (s.engine l).generation))
        ∧ ((s.engine l).slot = none → t.schedule = s.schedule)
        ∧ (∀ q, (s.engine l).request = some q →
            t.events = { s.events with
              entries := s.events.entries ++
                [{ kind := .acyclicDone, line := some l, station := q.desc.station, code := 12, cycle := q.cycle,
                   tag := q.desc.tag, entryIndex := BitVec.ofNat 8 q.index.val, attempts := q.attempts }]
              reserved := s.events.reserved.set l false })
        ∧ ((s.engine l).request = none → t.events = s.events)
        ∧ t = { s with
            lines := t.lines, pool := t.pool, schedule := t.schedule, events := t.events
            host := s.host.accepted 0x21 })

/-- A write of a line setting that is taken: the line's engine becomes the one given, and nothing else changes. -/
def Sys2Proof.Machine.TakesSetting (s : State) (l : Line) (which : LineSetting) (v : Byte) (e : Engine) : Prop :=
  exec (.lineSettingWrite l which v) s = .next { s.setEngine l e with host := { s.host with data := none } }

/-- Writes of line settings (R55, R168): taken in OFF with a value in the range of section 4.1, else ignored with SET_LOCKED. The divisor is
written by its high byte, with the line's own holding byte, and is at most 4095. -/
def Obligations.LineSettingsAreWrittenWhileOff : Prop :=
  ∀ (s : State) (l : Line) (v : Byte), s.inReset = false →
    let e := s.engine l
    exec (.divisorLowWrite l v) s = .next { s.setEngine l { e with divisorHold := v } with
      host := { s.host with data := none } }
    ∧ (e.state = .off → (v ++ e.divisorHold).toNat ≤ 4095 →
      exec (.divisorHighWrite l v) s = .next { s.setEngine l { e with divisor := v ++ e.divisorHold } with
        host := { s.host with data := none } })
    ∧ (e.state ≠ .off ∨ 4095 < (v ++ e.divisorHold).toNat →
      exec (.divisorHighWrite l v) s = .next { s with host := { s.host with data := none, setLocked := true } })
    ∧ (e.state = .off →
      (2 ≤ v.toNat ∧ v.toNat ≤ 63 → TakesSetting s l .frameGap v { e with frameGap := v })
      ∧ (2 ≤ v.toNat ∧ v.toNat ≤ 15 → TakesSetting s l .charGap v { e with charGap := v })
      ∧ (1 ≤ v.toNat ∧ v.toNat ≤ 15 → TakesSetting s l .failThreshold v { e with failThreshold := v })
      ∧ (1 ≤ v.toNat → TakesSetting s l .probeInterval v { e with probeInterval := v })
      ∧ TakesSetting s l .lineFlags v { e with echoCheck := v.getLsbD 0 }
      ∧ TakesSetting s l .eventMask v { e with
          mask := { stationOnline := v.getLsbD 0, stationOffline := v.getLsbD 1, statusChange := v.getLsbD 2,
                    cycleOverrun := v.getLsbD 3 } })
    ∧ ∀ which : LineSetting,
        (e.state ≠ .off
          ∨ (which = .frameGap ∧ (v.toNat < 2 ∨ 63 < v.toNat)) ∨ (which = .charGap ∧ (v.toNat < 2 ∨ 15 < v.toNat))
          ∨ (which = .failThreshold ∧ (v.toNat < 1 ∨ 15 < v.toNat)) ∨ (which = .probeInterval ∧ v.toNat < 1)) →
        exec (.lineSettingWrite l which v) s = .next { s with host := { s.host with data := none, setLocked := true } }

/-- A write of any value to a counter clears it (R56, R106), POOL_MISSES without touching the empty-episode flag. -/
def Obligations.CountersAreClearedByAnyWrite : Prop :=
  ∀ (s : State) (v : Byte), s.inReset = false →
    exec (.poolMissesWrite v) s = .next { s with
      pool := { s.pool with misses := 0 }, host := { s.host with data := none } }
    ∧ ∀ l,
      exec (.overrunCounterWrite l v) s = .next { s.setEngine l { s.engine l with overruns := 0 } with
        host := { s.host with data := none } }
      ∧ exec (.strayCounterWrite l v) s = .next { s.setEngine l { s.engine l with strays := 0 } with
        host := { s.host with data := none } }

/-! ## Line engines: slots (sections 4.4 and 4.5) -/

/-- A slot context of an entry that begins now (R61). -/
def Sys2Proof.Machine.slotOf (s : State) (n : Notice) (r : ReadEntry) (resync : Bool) (attempts : Nat) : Slot :=
  { index := r.index, entry := r.entry, budgetEnd := r.budgetEnd, cycle := n.cycle, changeovers := n.changeovers,
    lateness := BitVec.ofNat 8 (min (s.timer.value.toNat - r.entry.offset.toNat) 255),
    startedLate := decide (r.entry.offset.toNat < s.timer.value.toNat), attempts := attempts, resync := resync,
    afterBoundary := false, arrival := 0, noticeHeld := true, carried := false }

/-- An engine that goes from `e` to TRANSMIT with the first character of a request on TX (R4, R67): a character in reception began before it
and is none of its echoes (R13; an edge of the same moment is log 9), and all else of the engine, but for its slot, snapshot, buffer,
request and walk, of which each statement speaks, is as it was. -/
def Sys2Proof.Machine.Engine.Sends (e e' : Engine) (station kind expected : Byte) (window : Half) (seqBit : Bool)
    (payload : List Byte) : Prop :=
  e' = { e with
    state := .transmit, failed := none, elapsed := 0
    tx := some { byte := requestHead station seqBit, head := true, clock := 0 }
    attempt := some
      { station := station, kind := kind, seqBit := seqBit, expected := expected, replyWindow := window,
        frame := requestFrame station kind seqBit payload, sent := 0, echo := none, windowOver := false,
        arrival := none, reply := none, judged := none }
    rx := { e.rx with char := e.rx.char.map fun p => { p with place := .elsewhere } }
    slot := e'.slot, snapshot := e'.snapshot, held := e'.held, request := e'.request, next := e'.next, walk := e'.walk }

/-- A take (R103, R104) that a slot needs, or does not: the line holds the head of the free list, or the miss is counted and the first of an
empty episode appends POOL_EMPTY. -/
def Sys2Proof.Machine.TakesBuffer (s : State) (l : Line) (needed : Bool) (w : TakeFor) (t : State) : Prop :=
  if needed = true then
    (∀ b rest, s.pool.free = b :: rest →
      (t.engine l).held = some b ∧ t.pool = { s.pool with free := rest } ∧ t.events = s.events)
    ∧ (s.pool.free = [] →
      (t.engine l).held = none ∧ t.pool = { s.pool with misses := satInc s.pool.misses, episode := true }
      ∧ t.events = if s.pool.episode = true then s.events else s.events.append
          { kind := .poolEmpty, line := some l, station := w.station, cycle := w.cycle, entryIndex := w.index,
            tag := w.tag })
  else (t.engine l).held = none ∧ t.pool = s.pool ∧ t.events = s.events

/-- An engine waits with a kept entry, holding no slot, and the value has reached the entry's offset with its reservation still to run
before the budget end (R61, R62). -/
def Sys2Proof.Machine.Reached (s : State) (l : Line) (n : Notice) (r : ReadEntry) : Prop :=
  (s.engine l).Legal ∧ (s.engine l).state = .wait ∧ (s.engine l).slot = none ∧ (s.engine l).notice = some n
  ∧ (s.engine l).next = some r ∧ r.entry.offset.toNat ≤ s.timer.value.toNat

/-- SLOT_BEGIN of an entry that is to be sent to a station (R61 to R67, R84): its own kind in ONLINE and SUSPECT, RESYNC in UNKNOWN and at
the probe of an OFFLINE station, whose countdown is reloaded. -/
def Obligations.SlotBeginSendsToAStation : Prop :=
  ∀ (s : State) (l : Line) (n : Notice) (r : ReadEntry) (i : Fin 62), s.inReset = false → Reached s l n r →
    s.timer.value.toNat + r.entry.reservation.toNat ≤ r.budgetEnd.toNat →
    stationIx r.entry.station = some i → r.entry.kind ≠ kindBroadcast → r.entry.kind ≠ kindOpen →
    1 ≤ r.entry.reservation.toNat →
    (s.station l i).health ≠ .parked → ((s.station l i).health = .offline → (s.station l i).probe = 1) →
    let confirmed := (s.station l i).health == .online || (s.station l i).health == .suspect
    let kind := if confirmed = true then r.entry.kind else kindResync
    let resync := !confirmed && r.entry.kind != kindResync
    let image := s.images.images[Fin.ofNat 64 r.entry.image.toNat]
    ∃ t, exec (.slotBegin l) s = .next t
      ∧ (t.engine l).slot = some (slotOf s n r resync 1)
      ∧ (s.engine l).Sends (t.engine l) r.entry.station kind (if kind = kindWrite ∨ kind = kindResync then 0 else r.entry.replyLength)
          r.entry.replyWindow (isSequenced kind && (s.station l i).s)
          (if sendsOutputs kind = true then image.live.toList.take r.entry.requestLength.toNat else [])
      ∧ (t.engine l).snapshot =
          (if sendsOutputs kind = true then some { bytes := image.live, generation := image.generation } else none)
      ∧ TakesBuffer s l (decide (r.entry.mailbox.toNat ≤ 47) && !resync)
          { station := r.entry.station, cycle := n.cycle, index := BitVec.ofNat 8 r.index.val, tag := 0 } t
      ∧ t.stations = (if (s.station l i).health = .offline then
            (s.setStation l i { s.station l i with probe := (s.engine l).probeInterval }).stations
          else s.stations)
      ∧ (t.engine l).notice = some n ∧ (t.engine l).next = none ∧ (t.engine l).walk = r.index.val + 1
      ∧ (t.engine l).request = (s.engine l).request
      ∧ (s.engine l).SameSettings (t.engine l) ∧ t.engine (otherLine l) = s.engine (otherLine l)
      ∧ t = { s with lines := t.lines, pool := t.pool, events := t.events, stations := t.stations }

/-- SLOT_BEGIN of a BROADCAST entry (R64 to R67): sent to every station without consulting the Station Table or taking a buffer. -/
def Obligations.SlotBeginSendsABroadcast : Prop :=
  ∀ (s : State) (l : Line) (n : Notice) (r : ReadEntry), s.inReset = false → Reached s l n r →
    s.timer.value.toNat + r.entry.reservation.toNat ≤ r.budgetEnd.toNat → 1 ≤ r.entry.reservation.toNat →
    r.entry.kind = kindBroadcast →
    let image := s.images.images[Fin.ofNat 64 r.entry.image.toNat]
    ∃ t, exec (.slotBegin l) s = .next t
      ∧ (t.engine l).slot = some (slotOf s n r false 1)
      ∧ (s.engine l).Sends (t.engine l) r.entry.station kindBroadcast r.entry.replyLength r.entry.replyWindow false
          (image.live.toList.take r.entry.requestLength.toNat)
      ∧ (t.engine l).snapshot = some { bytes := image.live, generation := image.generation }
      ∧ (t.engine l).held = none ∧ (t.engine l).request = (s.engine l).request
      ∧ (t.engine l).notice = some n ∧ (t.engine l).next = none ∧ (t.engine l).walk = r.index.val + 1
      ∧ (s.engine l).SameSettings (t.engine l) ∧ t.engine (otherLine l) = s.engine (otherLine l)
      ∧ t = { s with lines := t.lines }

/-- The engine reads no further entry: it holds no notice, or its list is finished for the cycle (R38, R61). -/
def Sys2Proof.Machine.ListFinished (s : State) (l : Line) : Prop :=
  ∀ n, (s.engine l).notice = some n → s.schedule.entryRead s.timer.period l n (s.engine l).walk = none

/-- The line's walk goes on from a state in the same step, whatever the next entry is (R61, R62): the command does what SLOT_BEGIN does there,
which is nothing when the list is finished for the cycle. -/
def Sys2Proof.Machine.GoesOn (c : Instr) (s : State) (l : Line) (u : State) : Prop :=
  exec c s = exec (.slotBegin l) u ∧ (ListFinished u l → exec c s = .next u)

/-- The line with the kept entry used up (R61). -/
def Sys2Proof.Machine.Engine.passed (e : Engine) (r : ReadEntry) : Engine := { e with next := none, walk := r.index.val + 1 }

/-- SLOT_BEGIN of an engine that keeps no entry, and of an entry that sends no traffic (R61 to R64, R84). The next due entry is read; it waits
for its offset, or its slot begins in the same step. SQUEEZED with too little time left, SKIPPED for a PARKED station and for an OFFLINE one
between probes, whose countdown falls by one, and the walk goes on with the next entry in the same step (log 12); an OPEN slot stays. That
nothing happens before the offset, outside WAIT or within a slot is log 1. -/
def Obligations.SlotBeginWithoutTraffic : Prop :=
  (∀ (s : State) (l : Line), s.inReset = false → (s.engine l).Legal → (s.engine l).state = .wait → (s.engine l).slot = none →
    (s.engine l).next = none →
    (ListFinished s l → exec (.slotBegin l) s = .next s)
    ∧ ∀ n r, (s.engine l).notice = some n → s.schedule.entryRead s.timer.period l n (s.engine l).walk = some r →
      let u := s.setEngine l { s.engine l with next := some r }
      (s.timer.value.toNat < r.entry.offset.toNat → exec (.slotBegin l) s = .next u)
      ∧ (r.entry.offset.toNat ≤ s.timer.value.toNat → Reached u l n r ∧ exec (.slotBegin l) s = exec (.slotBegin l) u))
  ∧ (∀ (s : State) (l : Line) (n : Notice) (r : ReadEntry), s.inReset = false → Reached s l n r →
    (r.entry.kind = kindOpen → s.timer.value.toNat + r.entry.reservation.toNat ≤ r.budgetEnd.toNat →
      1 ≤ r.entry.reservation.toNat →
      exec (.slotBegin l) s = .next (s.setEngine l { (s.engine l).passed r with slot := some (slotOf s n r false 0) }))
    ∧ (r.budgetEnd.toNat < s.timer.value.toNat + r.entry.reservation.toNat → 1 ≤ r.entry.reservation.toNat →
      GoesOn (.slotBegin l) s l { s.setEngine l ((s.engine l).passed r) with
        schedule := s.schedule.writeResult l r.index n.changeovers ((slotOf s n r false 0).result .squeezed 0) })
    ∧ ∀ i, stationIx r.entry.station = some i → r.entry.kind ≠ kindBroadcast → r.entry.kind ≠ kindOpen →
      s.timer.value.toNat + r.entry.reservation.toNat ≤ r.budgetEnd.toNat → 1 ≤ r.entry.reservation.toNat →
      ((s.station l i).health = .parked →
        GoesOn (.slotBegin l) s l { s.setEngine l ((s.engine l).passed r) with
          schedule := s.schedule.writeResult l r.index n.changeovers ((slotOf s n r false 0).result .skipped 0) })
      ∧ ((s.station l i).health = .offline → (s.station l i).probe ≠ 1 →
        GoesOn (.slotBegin l) s l { (s.setEngine l ((s.engine l).passed r)).setStation
            l i { s.station l i with probe := (s.station l i).probe - 1 } with
          schedule := s.schedule.writeResult l r.index n.changeovers ((slotOf s n r false 0).result .skipped 0) }))
  ∧ ∀ (s : State) (l : Line), s.inReset = false →
      ((s.engine l).state ≠ .wait ∨ (s.engine l).slot.isSome = true → exec (.slotBegin l) s = .next s)
      ∧ ∀ r, (s.engine l).next = some r → s.timer.value.toNat < r.entry.offset.toNat → exec (.slotBegin l) s = .next s

/-! ## Line engines: characters, windows and gaps (chapter 1; sections 4.5 and 4.7) -/

/-- An attempt that ends with a failed outcome (R72, R77, R95): GAP with its retry decision to come, and the station's timeout or corrupt
count one higher for a kind that awaits a reply. -/
def Sys2Proof.Machine.failedAttempt (s : State) (l : Line) (a : Attempt) (o : Outcome) : State :=
  let u := s.setEngine l { s.engine l with state := .gap, attempt := none, tx := none, elapsed := 0, failed := some o }
  match stationIx a.station with
  | none => u
  | some i =>
    if a.kind = kindBroadcast then u
    else if o = .timeout then
      u.setStation l i { s.station l i with timeoutCount := satInc (s.station l i).timeoutCount }
    else u.setStation l i { s.station l i with corruptCount := satInc (s.station l i).corruptCount }

/-- The echo of the character being sent has come back as it was sent (R13). -/
def Sys2Proof.Machine.EchoGood (a : Attempt) : Prop :=
  a.echo = some { byte := a.frame.getD a.sent 0, head := decide (a.sent = 0), framing := false }

/-- The outputs of a line (R1, R2, R67, R68, R80, section 1.2): each of a character's eleven positions stands on TX for one bit time, the start
bit at 0, the eight data bits from the least significant, the head bit, and the stop bit at 1; TX is 1 with no character to send; DE is driven
in TRANSMIT and in no other state, and so from the head's start bit to the last stop bit. An attempt is in flight in the states named
(R79). -/
def Sys2Proof.Machine.LinesAreDriven : Prop :=
  ∀ e : Engine,
    let position := fun (c : TxChar) (k : Nat) =>
      k * (16 * (e.divisor.toNat + 1)) ≤ c.clock ∧ c.clock < (k + 1) * (16 * (e.divisor.toNat + 1))
    (∀ c, e.tx = some c →
      (position c 0 → e.txPin = false)
      ∧ (∀ bit < 8, position c (bit + 1) → e.txPin = c.byte.getLsbD bit)
      ∧ (position c 9 → e.txPin = c.head) ∧ (position c 10 → e.txPin = true))
    ∧ (e.tx = none → e.txPin = true)
    ∧ (e.state = .transmit → e.dePin = true) ∧ (e.state ≠ .transmit → e.dePin = false)
    ∧ (e.Legal → e.state ≠ .transmit → e.txPin = true)
    ∧ (e.inFlight = true ↔ e.state = .transmit ∨ e.state = .await ∨ e.state = .receive ∨ e.state = .quiet)

/-- CHARACTER_TRANSMITTED (R2, R8, R13, R67, R68, R80; R135 and R136 for a request): the frame goes on, or its reply window begins, or a
BROADCAST slot or a BROADCAST request ends OK, or an echo that is missing or differs ends the attempt CONFLICT; a line being disabled is
OFF. What stands on TX and DE is said by the character being sent and by the engine's state. That nothing happens outside TRANSMIT is log 1,
and that an OPEN slot is carried into the frame gap of a request that ends with no time remaining is log 11. -/
def Obligations.CharacterEndsContinueTheFrame : Prop :=
  LinesAreDriven
  ∧ ∀ (s : State) (l : Line), s.inReset = false →
    let e := s.engine l
    (e.state ≠ .transmit → exec (.characterTransmitted l) s = .next s)
    ∧ (e.state = .transmit → e.disabling = true → ∃ t, exec (.characterTransmitted l) s = .next t
      ∧ (t.engine l).state = .off ∧ (t.engine l).disabling = false ∧ (t.engine l).HoldsNothing ∧ (t.engine l).tx = none
      ∧ e.SameSettings (t.engine l) ∧ t.engine (otherLine l) = s.engine (otherLine l) ∧ t = { s with lines := t.lines })
    ∧ (e.state = .transmit → e.disabling = false → ∀ a, e.attempt = some a →
      (e.echoCheck = true → ¬ EchoGood a → exec (.characterTransmitted l) s = .next (failedAttempt s l a .conflict))
      ∧ (e.echoCheck = false ∨ EchoGood a →
        (a.sent + 1 < a.frame.length →
          exec (.characterTransmitted l) s = .next (s.setEngine l { e with
            attempt := some { a with sent := a.sent + 1, echo := none }
            tx := some { byte := a.frame.getD (a.sent + 1) 0, head := false, clock := 0 } }))
        ∧ (a.frame.length ≤ a.sent + 1 → a.kind ≠ kindBroadcast →
          exec (.characterTransmitted l) s = .next (s.setEngine l { e with
            state := .await, tx := none, elapsed := 0, attempt := some { a with sent := a.sent + 1, echo := none } }))
        ∧ ∀ c, a.frame.length ≤ a.sent + 1 → a.kind = kindBroadcast → e.Legal → e.slot = some c →
          (e.request = none →
            exec (.characterTransmitted l) s = .next { s.setEngine l { e with
                state := .gap, tx := none, elapsed := 0, attempt := none, failed := none, slot := none, snapshot := none } with
              schedule := s.schedule.writeResult l c.index c.changeovers (c.result .ok e.generation) })
          ∧ ∀ q, e.request = some q → q.desc.valid = true →
            exec (.characterTransmitted l) s = .next { s.setEngine l { e with
                state := .gap, tx := none, elapsed := 0, attempt := none, failed := none, request := none
                slot := some { c with carried := decide (timeRemaining s c = 0) } } with
              events := { s.events with
                entries := s.events.entries ++
                  [{ kind := .acyclicDone, line := some l, station := 63, code := 1, cycle := q.cycle, tag := q.desc.tag,
                     entryIndex := BitVec.ofNat 8 q.index.val, attempts := q.attempts }]
                reserved := s.events.reserved.set l false } }))

/-- A character whose reception completes now: begun at a START_EDGE, or begun and completed here (log 9), at a place and with a capture. -/
def Sys2Proof.Machine.Receives (s : State) (l : Line) (place : EdgePlace) (captured : Capture) : Prop :=
  (∃ p, (s.engine l).rx.char = some p ∧ p.place = place ∧ p.capture = captured)
  ∨ ((s.engine l).rx.char = none ∧ (s.engine l).rx.prev ≠ some false ∧ place = (s.engine l).edgePlace
      ∧ captured = s.timer.capture)

/-- The engine with its reception completed (R3): after a framing error the line must return to 1. -/
def Sys2Proof.Machine.Engine.received (e : Engine) (framing : Bool) : Engine :=
  { e with rx := { prev := some (!framing), char := none }, idle := 0 }

/-- The receiver's other events (R3, R8, R11, R13, R30, R78): a start edge captures the timer pair and says where it fell, in the character
being sent, in the reply window or elsewhere; a return to 1 lets the next edge be seen; a false start drops the character, and past the window
it decides TIMEOUT. In TRANSMIT the first character whose edge lies in the character being sent is its echo where echoes are checked, and
every other is discarded; in WAIT and GAP a character is a stray; in QUIET it is discarded and is no stray; in OFF it does nothing. That an
event outside its condition (a FALSE_START with no character in reception, a START_EDGE within one) has no effect is log 1, and what the
receiver last saw, and a character that can have had no start edge, are log 9. -/
def Obligations.StartEdgesCaptureAndStraysCount : Prop :=
  ∀ (s : State) (l : Line), s.inReset = false →
    let e := s.engine l
    (e.state = .off ∨ e.rx.char.isSome = true ∨ e.rx.prev = some false → exec (.startEdge l) s = .next s)
    ∧ (e.state ≠ .off → e.rx.char = none → e.rx.prev ≠ some false →
      exec (.startEdge l) s = .next (s.setEngine l { e with
        idle := 0
        rx := { prev := some false
                char := some { place := e.edgePlace, capture := s.timer.capture, count := 0, votes := [], bits := [] } } }))
    ∧ (s.timer.cycleRunning = true → s.timer.capture = { cycle := s.timer.cycleCount, value := s.timer.value, stopped := false })
    ∧ (s.timer.cycleRunning = false → s.timer.capture = { cycle := s.timer.cycleCount, value := 0, stopped := true })
    ∧ (e.state = .off → exec (.rxReturnedTo1 l) s = .next s)
    ∧ (e.state ≠ .off → exec (.rxReturnedTo1 l) s = .next (s.setEngine l { e with rx := { e.rx with prev := some true } }))
    ∧ (e.rx.char = none → exec (.falseStart l) s = .next s)
    ∧ (e.rx.char.isSome = true →
      (e.state ≠ .await ∨ e.attempt.any (·.windowOver) = false →
        exec (.falseStart l) s = .next (s.setEngine l { e with rx := { prev := some true, char := none } }))
      ∧ ∀ a, e.state = .await → e.attempt = some a → a.windowOver = true →
        exec (.falseStart l) s = .next (failedAttempt
          (s.setEngine l { e with rx := { prev := some true, char := none } }) l a .timeout))
    ∧ (∀ a, e.attempt = some a →
      (e.state = .transmit → e.edgePlace = .sending a.sent)
      ∧ (e.state = .await → e.edgePlace = if a.windowOver = true then .elsewhere else .window))
    ∧ (e.attempt = none ∨ (e.state ≠ .transmit ∧ e.state ≠ .await) → e.edgePlace = .elsewhere)
    ∧ ∀ byte head framing,
      (e.rx.char = none → e.state = .off ∨ e.rx.prev = some false → exec (.receivedCharacter l byte head framing) s = .next s)
      ∧ ∀ place captured, Receives s l place captured →
        let discarded := exec (.receivedCharacter l byte head framing) s = .next (s.setEngine l (e.received framing))
        (e.state = .wait ∨ e.state = .gap →
          exec (.receivedCharacter l byte head framing) s =
            .next (s.setEngine l { e.received framing with strays := satInc e.strays }))
        ∧ (e.state = .quiet → discarded)
        ∧ (e.state = .transmit → e.attempt = none → discarded)
        ∧ ∀ a, e.state = .transmit → e.attempt = some a →
          (e.echoCheck = true → place = .sending a.sent → a.echo = none →
            exec (.receivedCharacter l byte head framing) s = .next (s.setEngine l { e.received framing with
              attempt := some { a with echo := some { byte := byte, head := head, framing := framing } } }))
          ∧ (e.echoCheck = false ∨ place ≠ .sending a.sent ∨ a.echo.isSome = true → discarded)

/-- A character completed in AWAIT (R8, R9, R69, R71): a head whose edge lies in the window is the reply's, and its arrival is the
capture at that edge; a wrong address or a direction of 0 is ADDRESS, a framing error BROKEN, and the quiet wait begins; any other
character is a stray, and past the window it decides TIMEOUT. That a head with a framing error in the window is the reply's head, and
not a stray, is log 23 (DEDUCED); the arrival of a character that had no START_EDGE is log 9. -/
def Obligations.AwaitFindsTheReplyHead : Prop :=
  ∀ (s : State) (l : Line) (a : Attempt) (byte : Byte) (head framing : Bool) (place : EdgePlace) (captured : Capture),
    s.inReset = false → (s.engine l).state = .await → (s.engine l).attempt = some a → Receives s l place captured →
    let e := (s.engine l).received framing
    let slot := if e.request.isSome = true then e.slot else e.slot.map fun c => { c with
      arrival := captured.value, afterBoundary := decide (captured.cycle ≠ c.cycle ∨ captured.stopped = true) }
    (head = true → place = .window →
      (framing = false → byte.setWidth 6 = a.station.setWidth 6 → byte.getLsbD 6 = true →
        exec (.receivedCharacter l byte head framing) s = .next (s.setEngine l { e with
          state := .receive, elapsed := 0, slot := slot
          attempt := some { a with
            arrival := some captured
            reply := some { stage := .kind, seqBit := byte.getLsbD 7, refuse := false, nibble := 0, length := 0, got := 0,
                            crc := crc [byte], checkHigh := 0 } } }))
      ∧ (framing = true →
        exec (.receivedCharacter l byte head framing) s = .next (s.setEngine l { e with
          state := .quiet, elapsed := 0, slot := slot
          attempt := some { a with arrival := some captured, reply := none, judged := some .broken } }))
      ∧ (framing = false → byte.setWidth 6 ≠ a.station.setWidth 6 ∨ byte.getLsbD 6 = false →
        exec (.receivedCharacter l byte head framing) s = .next (s.setEngine l { e with
          state := .quiet, elapsed := 0, slot := slot
          attempt := some { a with arrival := some captured, reply := none, judged := some .address } })))
    ∧ (head = false ∨ place ≠ .window →
      (a.windowOver = false →
        exec (.receivedCharacter l byte head framing) s = .next (s.setEngine l { e with strays := satInc e.strays }))
      ∧ (a.windowOver = true →
        exec (.receivedCharacter l byte head framing) s =
          .next (failedAttempt (s.setEngine l { e with strays := satInc e.strays }) l a .timeout)))

/-- The judgement of a character after the reply's head (R5, R9, R10), by the character awaited: BROKEN for a framing error or a head bit at any
of them, and for a kind code that is neither REFUSE nor the request's; LENGTH for a length above 32, and, unless the reply is a REFUSE or any
length is expected, for one that is not expected; at the second check character CHECK before SEQUENCE, and REFUSED or OK for what passes. A
character that passes is kept, and the check value runs over the head, kind, length and payload characters. -/
def Sys2Proof.Machine.JudgesReplies : Prop :=
  ∀ (a : Attempt) (r : Reply) (c : RxChar),
    let v := c.byte.toNat
    let next := { r with crc := crcByte r.crc c.byte }
    (c.framing = true ∨ c.head = true → judgeNext a r c = .failed .broken)
    ∧ (c.framing = false → c.head = false →
      (r.stage = .kind →
        (v % 16 = 0 ∨ v % 16 = a.kind.toNat % 16 → judgeNext a r c = .more { next with
          stage := .length, refuse := decide (v % 16 = 0), nibble := BitVec.ofNat 4 (v / 16) } none)
        ∧ (v % 16 ≠ 0 → v % 16 ≠ a.kind.toNat % 16 → judgeNext a r c = .failed .broken))
      ∧ (r.stage = .length →
        (32 < v → judgeNext a r c = .failed .length)
        ∧ (r.refuse = false → a.expected ≠ 255 → c.byte ≠ a.expected → judgeNext a r c = .failed .length)
        ∧ (v ≤ 32 → r.refuse = true ∨ a.expected = 255 ∨ c.byte = a.expected → judgeNext a r c = .more { next with
          stage := if v = 0 then .checkHigh else .payload, length := c.byte } none))
      ∧ (r.stage = .payload → judgeNext a r c = .more { next with
          stage := if r.got + 1 < r.length.toNat then .payload else .checkHigh, got := r.got + 1 } (some (r.got, c.byte)))
      ∧ (r.stage = .checkHigh → judgeNext a r c = .more { r with stage := .checkLow, checkHigh := c.byte } none)
      ∧ (r.stage = .checkLow →
        let sequenced := a.kind = 2 ∨ a.kind = 3 ∨ (8 ≤ a.kind.toNat ∧ a.kind.toNat ≤ 15)
        (r.checkHigh ++ c.byte ≠ r.crc → judgeNext a r c = .whole .check r)
        ∧ (r.checkHigh ++ c.byte = r.crc →
          (sequenced → r.seqBit ≠ a.seqBit → judgeNext a r c = .whole .sequence r)
          ∧ (¬ sequenced ∨ r.seqBit = a.seqBit → judgeNext a r c = .whole (if r.refuse = true then .refused else .ok) r))))
    ∧ ∀ before, r.crc = crc before → next.crc = crc (before ++ [c.byte])

/-- A character completed in RECEIVE is judged (R9, R10, R70): BROKEN, LENGTH, CHECK and SEQUENCE in their order, each by its own rule
(JudgesReplies); the reply goes on, its payload bytes go into the held buffer at their positions, a failure begins the quiet wait, and a
whole frame that fails ends the attempt at once. -/
def Obligations.ReplyCharactersAreJudged : Prop :=
  JudgesReplies
  ∧ ∀ (s : State) (l : Line) (a : Attempt) (r : Reply) (c : RxChar) (place : EdgePlace) (captured : Capture),
    s.inReset = false → (s.engine l).state = .receive → (s.engine l).attempt = some a → a.reply = some r →
    Receives s l place captured →
    let e := (s.engine l).received c.framing
    (∀ r', judgeNext a r c = .more r' none →
      exec (.receivedCharacter l c.byte c.head c.framing) s =
        .next (s.setEngine l { e with elapsed := 0, attempt := some { a with reply := some r' } }))
    ∧ (∀ r' k v, judgeNext a r c = .more r' (some (k, v)) →
      let t := s.setEngine l { e with elapsed := 0, attempt := some { a with reply := some r' } }
      (e.held = none → exec (.receivedCharacter l c.byte c.head c.framing) s = .next t)
      ∧ ∀ b, e.held = some b →
        exec (.receivedCharacter l c.byte c.head c.framing) s = .next (t.setBuffer b { s.pool.buffers[b] with
          payload := s.pool.buffers[b].payload.setIfInBounds k v }))
    ∧ (∀ o, judgeNext a r c = .failed o →
      exec (.receivedCharacter l c.byte c.head c.framing) s = .next (s.setEngine l { e with
        state := .quiet, elapsed := 0, attempt := some { a with judged := some o } }))
    ∧ ∀ o r', judgeNext a r c = .whole o r' → o = .check ∨ o = .sequence →
      exec (.receivedCharacter l c.byte c.head c.framing) s = .next (failedAttempt (s.setEngine l e) l a o)

/-- The report of a slot whose last attempt ended with an outcome, the final reply's nibble with it (R75, R87). -/
def Sys2Proof.Machine.slotReport (c : Slot) (o : Outcome) (nibble : Option (BitVec 4)) : Report :=
  { kind := c.kindSent, outcome := o, nibble := nibble, cycle := c.cycle, index := BitVec.ofNat 8 c.index.val, tag := 0,
    attempts := c.attempts }

/-- A station's record takes a report and its events are appended in their order (R87, R92, R93). -/
def Sys2Proof.Machine.StationReported (s : State) (l : Line) (address : Byte) (p : Report) (t : State) : Prop :=
  ∀ i, stationIx address = some i →
    let e := s.engine l
    let r := (s.station l i).report p e.failThreshold e.probeInterval
    t.stations = (s.setStation l i r).stations
    ∧ t.events = (stationEvents l address e.mask (s.station l i) r p).foldl EventQueue.append s.events

/-- The result of a slot, whatever its outcome (R76): the outcome, the attempts begun, the slot's flags, the arrival of the last attempt that
found a head, the slot's cycle and lateness, and the generation of its snapshot, 0 without one. Its write reaches the record of its own line
and index alone, and none when the store's changeover count is no longer the slot's (R50). A slot sends its entry's kind, or the RESYNC
substituted for it (R64), and an entry of kind 16 opens a slot (R63). -/
def Sys2Proof.Machine.SlotsWriteTheirResults : Prop :=
  (∀ (c : Slot) (o : Outcome) (generation : Byte),
    let r := c.result o generation
    r.outcome = o ∧ r.attempts = c.attempts ∧ r.resync = c.resync ∧ r.afterBoundary = c.afterBoundary
    ∧ r.startedLate = c.startedLate ∧ r.arrival = c.arrival ∧ r.cycle = c.cycle ∧ r.generation = generation
    ∧ r.lateness = c.lateness
    ∧ (c.resync = true → c.kindSent = 5) ∧ (c.resync = false → c.kindSent = c.entry.kind)
    ∧ (c.isOpen = true ↔ c.entry.kind = 16))
  ∧ (∀ e : Engine, (e.snapshot = none → e.generation = 0) ∧ ∀ n, e.snapshot = some n → e.generation = n.generation)
  ∧ ∀ (sch : Schedule) (l : Line) (i : Fin 32) (changeovers : Half) (r : SlotResult),
    let t := sch.writeResult l i changeovers r
    (changeovers ≠ sch.changeovers → t = sch)
    ∧ (changeovers = sch.changeovers →
      (t.results.get l)[i] = r ∧ (∀ j : Fin 32, j ≠ i → (t.results.get l)[j] = (sch.results.get l)[j])
      ∧ t.results.get (otherLine l) = sch.results.get (otherLine l) ∧ t = { sch with results := t.results })

/-- A reply judged OK or REFUSED as a whole ends its slot (R72, R74, R75, R76, R87, R101): GAP with nothing to decide; the record takes the
report; the result is written, as SlotsWriteTheirResults says of every slot's (R50, R76). An OK reply's buffer gets its header and is
published, and the buffer it displaces joins the free list; a REFUSED reply's buffer goes back to the pool. -/
def Obligations.JudgedReplyEndsTheSlot : Prop :=
  SlotsWriteTheirResults
  ∧ ∀ (s : State) (l : Line) (a : Attempt) (r : Reply) (c : Slot) (x : RxChar) (o : Outcome) (i : Fin 62) (place : EdgePlace)
    (captured arrival : Capture),
    s.inReset = false → (s.engine l).state = .receive → (s.engine l).attempt = some a → a.reply = some r →
    a.arrival = some arrival → (s.engine l).Legal → (s.engine l).request = none → (s.engine l).slot = some c →
    stationIx a.station = some i → Receives s l place captured →
    judgeNext a r x = .whole o r → o = .ok ∨ o = .refused →
    ∃ t, exec (.receivedCharacter l x.byte x.head x.framing) s = .next t
      ∧ t.engine l = { (s.engine l).received x.framing with
          state := .gap, attempt := none, tx := none, elapsed := 0, failed := none, slot := none, snapshot := none, held := none }
      ∧ t.engine (otherLine l) = s.engine (otherLine l)
      ∧ StationReported s l a.station (slotReport c o (some r.nibble)) t
      ∧ t.schedule = s.schedule.writeResult l c.index c.changeovers (c.result o (s.engine l).generation)
      ∧ ((s.engine l).held = none → t.pool = s.pool ∧ t.mailboxes = s.mailboxes)
      ∧ (∀ b, (s.engine l).held = some b →
          (o = .refused ∨ mailboxArg c.entry.mailbox = none →
            t.pool = { s.pool with free := s.pool.free ++ [b], episode := false } ∧ t.mailboxes = s.mailboxes)
          ∧ ∀ m, o = .ok → mailboxArg c.entry.mailbox = some m →
            t.mailboxes = setAt s.mailboxes m (s.mailboxes[m].publish b).1
            ∧ t.pool.free = s.pool.free ++ (s.mailboxes[m].publish b).2.toList
            ∧ t.pool.misses = s.pool.misses
            ∧ t.pool.episode = (s.pool.episode && (s.mailboxes[m].publish b).2.isNone)
            ∧ t.pool.buffers = setAt s.pool.buffers b { s.pool.buffers[b] with
                line := l, station := a.station, kind := a.kind, nibble := r.nibble, seqBit := r.seqBit, length := r.length,
                cycle := arrival.cycle, arrival := arrival.value, label := c.entry.label })
      ∧ t = { s with
          lines := t.lines, stations := t.stations, events := t.events, schedule := t.schedule, pool := t.pool
          mailboxes := t.mailboxes }

/-- The windows and waits of an attempt (R8, R9, R11, R71). That an expiry outside its state, or while its wait does not run, has no effect is
log 1. -/
def Obligations.WindowsAndWaitsEndAttempts : Prop :=
  ∀ (s : State) (l : Line), s.inReset = false →
    let e := s.engine l
    (e.state ≠ .await → exec (.replyWindowExpiry l) s = .next s)
    ∧ (e.state ≠ .receive ∨ e.rx.char.isSome = true → exec (.characterGapExpiry l) s = .next s)
    ∧ (e.state ≠ .quiet → exec (.quietIdleExpiry l) s = .next s ∧ exec (.quietLimitExpiry l) s = .next s)
    ∧ (e.rx.prev = some false → exec (.quietIdleExpiry l) s = .next s)
    ∧ ∀ a, e.attempt = some a →
      (e.state = .await →
        (e.rx.char = none → exec (.replyWindowExpiry l) s = .next (failedAttempt s l a .timeout))
        ∧ (e.rx.char.isSome = true →
          exec (.replyWindowExpiry l) s = .next (s.setEngine l { e with attempt := some { a with windowOver := true } })))
      ∧ (e.state = .receive → e.rx.char = none →
        exec (.characterGapExpiry l) s = .next (s.setEngine l { e with
          state := .quiet, elapsed := 0, attempt := some { a with judged := some .broken } }))
      ∧ ∀ o, e.state = .quiet → a.judged = some o → o.Failed →
        exec (.quietLimitExpiry l) s = .next (failedAttempt s l a o)
        ∧ (e.rx.prev ≠ some false → exec (.quietIdleExpiry l) s = .next (failedAttempt s l a o))

/-- A slot's time remaining is at least its reservation, and it may make another attempt (R60, R73). -/
def Sys2Proof.Machine.RetryDue (s : State) (c : Slot) : Prop :=
  c.attempts ≤ c.entry.retryLimit.toNat ∧ c.noticeHeld = true
  ∧ s.timer.value.toNat + c.entry.reservation.toNat ≤ c.budgetEnd.toNat

/-- A request's time remaining in its OPEN slot is at least its reservation, and it may make another attempt (R60, R73, R135). -/
def Sys2Proof.Machine.RequestRetryDue (s : State) (c : Slot) (q : Request) : Prop :=
  q.attempts ≤ q.desc.retryLimit.toNat ∧ c.noticeHeld = true
  ∧ s.timer.value.toNat + q.desc.reservation.toNat ≤ c.budgetEnd.toNat

/-- FRAME_GAP_END of a slot whose attempt failed (R72, R73, R75, R76): another attempt with the same snapshot, buffer and sequence bit, or the
slot's end with that outcome, its buffer returned and its station told, and the walk goes on with the next entry in the same step (log 12). -/
def Sys2Proof.Machine.FailedSlotsGoOnOrEnd : Prop :=
  ∀ (s : State) (l : Line) (c : Slot) (o : Outcome), s.inReset = false → (s.engine l).Legal → (s.engine l).state = .gap →
    (s.engine l).failed = some o → (s.engine l).request = none → (s.engine l).slot = some c →
    1 ≤ c.entry.reservation.toNat →
    (RetryDue s c → ∃ t, exec (.frameGapEnd l) s = .next t
      ∧ (t.engine l).slot = some { c with attempts := c.attempts + 1 }
      ∧ (s.engine l).Sends (t.engine l) c.entry.station c.kindSent
          (if c.kindSent = kindWrite ∨ c.kindSent = kindResync then 0 else c.entry.replyLength) c.entry.replyWindow
          (isSequenced c.kindSent && (stationIx c.entry.station).any fun i => (s.station l i).s)
          (((s.engine l).snapshot.map fun n => n.bytes.toList.take c.entry.requestLength.toNat).getD [])
      ∧ (t.engine l).snapshot = (s.engine l).snapshot ∧ (t.engine l).held = (s.engine l).held
      ∧ (t.engine l).request = (s.engine l).request
      ∧ (t.engine l).notice = (s.engine l).notice ∧ (t.engine l).walk = (s.engine l).walk
      ∧ (t.engine l).next = (s.engine l).next
      ∧ (s.engine l).SameSettings (t.engine l) ∧ t.engine (otherLine l) = s.engine (otherLine l)
      ∧ t = { s with lines := t.lines })
    ∧ (¬ RetryDue s c → ∃ u, GoesOn (.frameGapEnd l) s l u
      ∧ u.engine l = { s.engine l with state := .wait, failed := none, slot := none, snapshot := none, held := none }
      ∧ u.engine (otherLine l) = s.engine (otherLine l)
      ∧ u.pool = { s.pool with
          free := s.pool.free ++ (s.engine l).held.toList, episode := s.pool.episode && (s.engine l).held.isNone }
      ∧ (c.kindSent ≠ kindBroadcast → StationReported s l c.entry.station (slotReport c o none) u)
      ∧ (c.kindSent = kindBroadcast ∨ stationIx c.entry.station = none → u.stations = s.stations ∧ u.events = s.events)
      ∧ u.schedule = s.schedule.writeResult l c.index c.changeovers (c.result o (s.engine l).generation)
      ∧ u = { s with
          lines := u.lines, pool := u.pool, stations := u.stations, events := u.events, schedule := u.schedule })

/-- FRAME_GAP_END of an acyclic request whose attempt failed (R73, R135 to R137): another attempt with the same bytes, buffer and sequence bit,
or its completion with that outcome, its buffer returned, its reserved event landing without one, its station told; the events come in any
order (log 5). The OPEN slot stays while time remains, and else ends OK and the walk goes on (R63, log 11). -/
def Sys2Proof.Machine.FailedRequestsGoOnOrEnd : Prop :=
  ∀ (s : State) (l : Line) (c : Slot) (q : Request) (o : Outcome), s.inReset = false → (s.engine l).Legal →
    (s.engine l).state = .gap → (s.engine l).failed = some o → (s.engine l).request = some q → (s.engine l).slot = some c →
    1 ≤ q.desc.reservation.toNat →
    (RequestRetryDue s c q → ∃ t, exec (.frameGapEnd l) s = .next t
      ∧ (t.engine l).request = some { q with attempts := q.attempts + 1 } ∧ (t.engine l).slot = some c
      ∧ (s.engine l).Sends (t.engine l) q.desc.station q.desc.kind
          (if q.desc.kind = kindWrite ∨ q.desc.kind = kindResync then 0 else q.desc.replyLength) q.desc.replyWindow
          (isSequenced q.desc.kind && (stationIx q.desc.station).any fun i => (s.station l i).s)
          (q.desc.payload.toList.take q.desc.requestLength.toNat)
      ∧ (t.engine l).held = (s.engine l).held ∧ (t.engine l).snapshot = (s.engine l).snapshot
      ∧ (t.engine l).notice = (s.engine l).notice ∧ (t.engine l).walk = (s.engine l).walk
      ∧ (t.engine l).next = (s.engine l).next
      ∧ (s.engine l).SameSettings (t.engine l) ∧ t.engine (otherLine l) = s.engine (otherLine l)
      ∧ t = { s with lines := t.lines })
    ∧ (¬ RequestRetryDue s c q → ∃ u,
      let done : Event := { kind := .acyclicDone, line := some l, station := q.desc.station, code := outcomeCode o,
                            cycle := q.cycle, tag := q.desc.tag, entryIndex := BitVec.ofNat 8 q.index.val,
                            attempts := q.attempts }
      let p : Report := { kind := q.desc.kind, outcome := o, nibble := none, cycle := q.cycle, index := 255,
                          tag := q.desc.tag, attempts := q.attempts }
      u.engine l = { s.engine l with
        state := .wait, failed := none, request := none, held := none
        slot := some { c with carried := decide (timeRemaining s c = 0) } }
      ∧ u.engine (otherLine l) = s.engine (otherLine l)
      ∧ u.pool = { s.pool with
          free := s.pool.free ++ (s.engine l).held.toList, episode := s.pool.episode && (s.engine l).held.isNone }
      ∧ (stationIx q.desc.station = none → u.stations = s.stations
          ∧ u.events = { s.events with
              entries := s.events.entries ++ [done], reserved := s.events.reserved.set l false })
      ∧ (∀ i, stationIx q.desc.station = some i →
          let record := (s.station l i).report p (s.engine l).failThreshold (s.engine l).probeInterval
          u.stations = (s.setStation l i record).stations
          ∧ ∃ order : List Append, order.Perm (Append.reserved l done ::
                (stationEvents l q.desc.station (s.engine l).mask (s.station l i) record p).map Append.plain)
              ∧ u.events = order.foldl EventQueue.apply s.events)
      ∧ u = { s with
          lines := u.lines, pool := u.pool, stations := u.stations, events := u.events, choices := u.choices }
      ∧ (0 < timeRemaining s c → exec (.frameGapEnd l) s = .next u)
      ∧ (timeRemaining s c = 0 → GoesOn (.frameGapEnd l) s l
          { u.setEngine l { u.engine l with slot := none, snapshot := none } with
            schedule := s.schedule.writeResult l c.index c.changeovers (c.result .ok (s.engine l).generation) }))

/-- FRAME_GAP_END after a failed attempt, of a slot and of an acyclic request (R72, R73, R75, R76, R135 to R137). -/
def Obligations.FrameGapEndRetriesOrEndsTheSlot : Prop := FailedSlotsGoOnOrEnd ∧ FailedRequestsGoOnOrEnd

/-- The time remaining of a slot (R60), and when an OPEN slot is over (R63): with no request in progress and no time remaining, unless the
frame gap of a request has carried it (log 11). -/
def Sys2Proof.Machine.SlotsHaveTime : Prop :=
  (∀ (s : State) (c : Slot),
    (c.noticeHeld = false → timeRemaining s c = 0)
    ∧ (c.noticeHeld = true →
      (s.timer.value.toNat ≤ c.budgetEnd.toNat → s.timer.value.toNat + timeRemaining s c = c.budgetEnd.toNat)
      ∧ (c.budgetEnd.toNat ≤ s.timer.value.toNat → timeRemaining s c = 0)))
  ∧ ∀ (s : State) (l : Line), openSlotOver l s = true ↔ ∃ c, (s.engine l).slot = some c ∧ c.entry.kind = 16
      ∧ (s.engine l).request = none ∧ c.carried = false ∧ timeRemaining s c = 0
      ∧ ((s.engine l).state = .wait ∨ (s.engine l).state = .gap)

/-- FRAME_GAP_END with nothing to decide, and OPEN_SLOT_END (R60, R61, R63, R72): back to WAIT, and the walk goes on with the next entry; an
OPEN slot ends with outcome OK when no request is in progress and no time remains, its result being OK with every field 0 but the cycle, the
lateness and the started-late flag. That nothing happens outside GAP, or while the OPEN slot is not over, is log 1. That a slot carried into
the frame gap ends at its end, and that the slot after an OPEN slot begins by a step of its own, OPEN_SLOT_END only reading its entry, are
log 11 and log 12. -/
def Obligations.GapsAndOpenSlotsEnd : Prop :=
  SlotsHaveTime
  ∧ ∀ (s : State) (l : Line), s.inReset = false →
    let e := s.engine l
    (e.state ≠ .gap → exec (.frameGapEnd l) s = .next s)
    ∧ (e.state = .gap → e.failed = none → e.slot = none → e.next = none →
      GoesOn (.frameGapEnd l) s l (s.setEngine l { e with state := .wait }))
    ∧ (∀ c, e.state = .gap → e.failed = none → e.slot = some c → c.isOpen = true → 0 < timeRemaining s c →
      exec (.frameGapEnd l) s = .next (s.setEngine l { e with state := .wait, slot := some { c with carried := false } }))
    ∧ (openSlotOver l s = false → exec (.openSlotEnd l) s = .next s)
    ∧ ∀ c, e.slot = some c → c.isOpen = true →
      (e.Legal → c.result .ok e.generation = { SlotResult.none with
        outcome := .ok, startedLate := c.startedLate, cycle := c.cycle, lateness := c.lateness })
      ∧ (timeRemaining s c = 0 → e.request = none →
        let left := { e with slot := none, snapshot := none }
        let results := s.schedule.writeResult l c.index c.changeovers (c.result .ok e.generation)
        (e.state = .gap → e.failed = none → e.next = none →
          GoesOn (.frameGapEnd l) s l { s.setEngine l { left with state := .wait } with schedule := results })
        ∧ (c.carried = false → e.state = .gap →
          exec (.openSlotEnd l) s = .next { s.setEngine l left with schedule := results })
        ∧ (c.carried = false → e.state = .wait → e.next = none →
          exec (.openSlotEnd l) s = .next { s.setEngine l { left with
              next := e.notice.bind fun n => s.schedule.entryRead s.timer.period l n e.walk } with
            schedule := results }))

/-- Every step keeps both engines legal (sections 4.2 to 4.8). -/
def Obligations.EnginesStayLegal : Prop :=
  ∀ s t : State, (∀ l, (s.engine l).Legal) → step s = .next t → ∀ l, (t.engine l).Legal

/-! ## Station Table (chapter 5) -/

/-- The health, the fail count and the probe countdown of a record. -/
def Sys2Proof.Machine.Station.Stands (r : Station) (health : Health) (failCount probe : Byte) : Prop :=
  r.health = health ∧ r.failCount = failCount ∧ r.probe = probe

/-- A slot-end report (R86 to R94): the health table, the send sequence, the nibble, the last exchange and the counters; and the events it
calls for, STATUS_CHANGE before the health event. -/
def Obligations.ReportsUpdateTheRecord : Prop :=
  ∀ (r : Station) (p : Report) (threshold interval : Byte),
    let t := r.report p threshold interval
    let success := p.outcome = .ok ∨ (p.outcome = .refused ∧ p.kind ≠ kindResync)
    let resynced := p.outcome = .ok ∧ p.kind = kindResync
    let reaches := threshold.toNat ≤ (r.failCount + 1).toNat
    ((r.health = .unknown →
        (resynced → t.Stands .online 0 r.probe) ∧ (success → ¬ resynced → t.Stands .unknown 0 r.probe)
        ∧ (¬ success → ¬ reaches → t.Stands .unknown (r.failCount + 1) r.probe)
        ∧ (¬ success → reaches → t.Stands .offline (r.failCount + 1) interval))
      ∧ (r.health = .online ∨ r.health = .suspect → success → t.Stands .online 0 r.probe)
      ∧ (r.health = .online → ¬ success →
        t.Stands (if threshold.toNat ≤ 1 then .offline else .suspect) 1 (if threshold.toNat ≤ 1 then interval else r.probe))
      ∧ (r.health = .suspect → ¬ success →
        (¬ reaches → t.Stands .suspect (r.failCount + 1) r.probe)
        ∧ (reaches → t.Stands .offline (r.failCount + 1) interval))
      ∧ (r.health = .offline →
        (resynced → t.Stands .online 0 r.probe) ∧ (¬ resynced → t.Stands .offline r.failCount r.probe))
      ∧ (r.health = .parked → t.Stands .parked r.failCount r.probe))
    ∧ (t.s = if p.outcome = .ok ∧ isSequenced p.kind = true then !r.s else if resynced then false else r.s)
    ∧ t.nibble = p.nibble.getD r.nibble ∧ t.lastOutcome = p.outcome
    ∧ (p.outcome = .ok → t.lastOkCycle = p.cycle ∧ t.okCount = satInc r.okCount)
    ∧ (p.outcome ≠ .ok → t.lastOkCycle = r.lastOkCycle ∧ t.okCount = r.okCount)
    ∧ (t.failureCount = if success then r.failureCount else satInc r.failureCount)
    ∧ t.timeoutCount = r.timeoutCount ∧ t.corruptCount = r.corruptCount
    ∧ ∀ (l : Line) (address : Byte) (mask : EventMask),
        let events := stationEvents l address mask r t p
        ((∃ e ∈ events, e.kind = .statusChange) ↔ (t.nibble ≠ r.nibble ∧ mask.statusChange = true))
        ∧ ((∃ e ∈ events, e.kind = .stationOnline) ↔
            ((r.health = .unknown ∨ r.health = .offline) ∧ t.health = .online ∧ mask.stationOnline = true))
        ∧ ((∃ e ∈ events, e.kind = .stationOffline) ↔
            ((r.health = .unknown ∨ r.health = .online ∨ r.health = .suspect) ∧ t.health = .offline
              ∧ mask.stationOffline = true))
        ∧ (∀ e ∈ events, (e.kind = .statusChange ∨ e.kind = .stationOnline ∨ e.kind = .stationOffline)
            ∧ e.line = some l ∧ e.station = address ∧ e.cycle = p.cycle ∧ e.tag = p.tag ∧ e.entryIndex = p.index
            ∧ e.attempts = p.attempts ∧ e.nibble = t.nibble ∧ e.buffer = none
            ∧ e.code.toNat = if e.kind = .statusChange then 16 * r.nibble.toNat + t.nibble.toNat
                else 16 * (healthCode r.health).toNat + (healthCode t.health).toNat)
        ∧ ∀ e ∈ events.drop 1, e.kind ≠ .statusChange

/-- An attempt report (R95): TIMEOUT counts in the timeout count, every other failed outcome in the corrupt count, in every health state and
saturating; nothing else of the record changes, and the record after an attempt report and a slot-end report is the same in either order. -/
def Obligations.AttemptReportsCount : Prop :=
  (∀ (r : Station) (o : Outcome),
    (o = .timeout → r.attempt o = { r with timeoutCount := satInc r.timeoutCount })
    ∧ (o = .check ∨ o = .broken ∨ o = .length ∨ o = .address ∨ o = .sequence ∨ o = .conflict →
      r.attempt o = { r with corruptCount := satInc r.corruptCount })
    ∧ (o = .ok ∨ o = .refused → r.attempt o = r)
    ∧ ∀ (p : Report) (threshold interval : Byte),
        (r.attempt o).report p threshold interval = (r.report p threshold interval).attempt o)
  ∧ (∀ x : Half, x.toNat < 65535 → (satInc x).toNat = x.toNat + 1) ∧ satInc (0xFFFF : Half) = 0xFFFF
  ∧ ∀ (l : Line) (address : Byte) (i : Fin 62) (o : Outcome) (s : State), stationIx address = some i →
      reportAttempt l address o s = s.setStation l i ((s.station l i).attempt o)

/-- A station's send sequence changes only when a received character completes an OK reply to a sequenced request, which toggles it, or to a
RESYNC, which sets it to 0, or at a reset (R86). The engines are legal, which every step keeps (EnginesStayLegal). -/
def Obligations.SendSequenceChangesOnlyWithOk : Prop :=
  ∀ (c : Instr) (s t : State) (l : Line) (i : Fin 62), (∀ k, (s.engine k).Legal) → exec c s = .next t → ¬ isReset c →
    (t.station l i).s ≠ (s.station l i).s →
    (∃ byte head framing, c = .receivedCharacter l byte head framing)
    ∧ (∃ a, (s.engine l).attempt = some a ∧ stationIx a.station = some i
        ∧ (isSequenced a.kind = true ∨ (a.kind = kindResync ∧ (t.station l i).s = false)))
    ∧ (t.station l i).lastOutcome = .ok ∧ (t.station l i).okCount = satInc (s.station l i).okCount

/-- PARK, UNPARK and CLEAR_COUNTERS (R96 to R98), PUBLISH_IMAGE, MARK_IMAGE and UNMARK_ALL (R122, R125). -/
def Obligations.StationAndImageCommands : Prop :=
  ∀ s : State, s.inReset = false →
    (lineArg s.host.arg0 = none ∨ stationIx s.host.arg1 = none →
      exec .park s = .next (s.refused 0x28 .badArgument) ∧ exec .unpark s = .next (s.refused 0x29 .badArgument)
      ∧ exec .clearCounters s = .next (s.refused 0x2A .badArgument))
    ∧ (∀ l i, lineArg s.host.arg0 = some l → stationIx s.host.arg1 = some i →
      exec .park s = .next { s.setStation l i { s.station l i with health := .parked } with host := s.host.accepted 0x28 }
      ∧ ((s.station l i).health = .parked →
        exec .unpark s = .next { s.setStation l i { s.station l i with health := .unknown, failCount := 0 } with
          host := s.host.accepted 0x29 })
      ∧ ((s.station l i).health ≠ .parked → exec .unpark s = .next (s.refused 0x29 .wrongState))
      ∧ exec .clearCounters s = .next { s.setStation l i { s.station l i with
            okCount := 0, failureCount := 0, timeoutCount := 0, corruptCount := 0 } with
          host := s.host.accepted 0x2A })
    ∧ (64 ≤ s.host.arg0.toNat →
      exec .publishImage s = .next (s.refused 0x30 .badArgument) ∧ exec .markImage s = .next (s.refused 0x31 .badArgument))
    ∧ (∀ n : Fin 64, s.host.arg0.toNat = n.val →
      exec .publishImage s = .next { s with
        images := { s.images with images := setAt s.images.images n { s.images.images[n] with
          live := s.images.images[n].staged, generation := s.images.images[n].generation + 1 } }
        host := s.host.accepted 0x30 }
      ∧ exec .markImage s = .next { s with
        images := { s.images with marked := setAt s.images.marked n true }, host := s.host.accepted 0x31 })
    ∧ ∃ t, exec .unmarkAll s = .next t ∧ (∀ n : Fin 64, t.images.marked[n] = false)
        ∧ t = { s with images := { s.images with marked := t.images.marked }, host := s.host.accepted 0x32 }

/-- Every step keeps every station record and every line setting in its range (section 5.1, R84, R89, section 4.1). -/
def Obligations.StationsStayLegal : Prop :=
  ∀ s t : State, s.StationsLegal → step s = .next t → t.StationsLegal

/-! ## Buffer Pool and Mailboxes (chapter 6) -/

/-- CLAIM, RELEASE and FLUSH (R112 to R114). -/
def Obligations.MailboxCommandsFollowTheState : Prop :=
  ∀ s : State, s.inReset = false →
    (48 ≤ s.host.arg0.toNat →
      exec .claim s = .next (s.refused 0x40 .badArgument) ∧ exec .release s = .next (s.refused 0x41 .badArgument)
      ∧ exec .flush s = .next (s.refused 0x42 .badArgument))
    ∧ ∀ i : Fin 48, s.host.arg0.toNat = i.val →
      let m := s.mailboxes[i]
      (m.state = .full →
        exec .claim s = .next { s.setMailbox i { m with state := .claimed, fresh := false } with host := s.host.accepted 0x40 }
        ∧ exec .release s = .next (s.refused 0x41 .notClaimed))
      ∧ (m.state = .empty →
        exec .claim s = .next (s.refused 0x40 .empty) ∧ exec .release s = .next (s.refused 0x41 .notClaimed))
      ∧ (m.state = .claimed ∨ m.state = .claimedNext → exec .claim s = .next (s.refused 0x40 .alreadyClaimed))
      ∧ (∀ b, m.state = .claimed → m.current = some b →
        exec .release s = .next { s.setMailbox i { m with state := .empty, current := none } with
          pool := { s.pool with free := s.pool.free ++ [b], episode := false }, host := s.host.accepted 0x41 })
      ∧ (∀ b, m.state = .claimedNext → m.current = some b →
        exec .release s = .next { s.setMailbox i { m with state := .full, current := m.next, next := none, fresh := true } with
          pool := { s.pool with free := s.pool.free ++ [b], episode := false }, host := s.host.accepted 0x41 })
      ∧ exec .flush s = .next { s.setMailbox i { m with
            state := .empty, current := none, next := none, fresh := false, overwrites := 0 } with
          pool := { s.pool with
            free := s.pool.free ++ (m.current.toList ++ m.next.toList)
            episode := s.pool.episode && m.current.isNone && m.next.isNone }
          host := s.host.accepted 0x42 }

/-- A publish of a buffer (R109, R110): into EMPTY and FULL as the current buffer, into CLAIMED and CLAIMED_NEXT as the next; the buffer it
displaces joins the free list and counts as an overwrite, and the publish count is incremented in every state. -/
def Obligations.PublishFollowsTheMailbox : Prop :=
  ∀ (s : State) (i : Fin 48) (b : Fin 72),
    let m := s.mailboxes[i]
    (m.state = .empty →
      publishInto i b s = s.setMailbox i { m with
        state := .full, current := some b, fresh := true, publishes := m.publishes + 1 })
    ∧ (∀ old, m.state = .full → m.current = some old →
      publishInto i b s = { s.setMailbox i { m with
          current := some b, fresh := true, overwrites := if m.fresh = true then satInc m.overwrites else m.overwrites
          publishes := m.publishes + 1 } with
        pool := { s.pool with free := s.pool.free ++ [old], episode := false } })
    ∧ (m.state = .claimed →
      publishInto i b s = s.setMailbox i { m with
        state := .claimedNext, next := some b, publishes := m.publishes + 1 })
    ∧ (∀ old, m.state = .claimedNext → m.next = some old →
      publishInto i b s = { s.setMailbox i { m with
          next := some b, overwrites := satInc m.overwrites, publishes := m.publishes + 1 } with
        pool := { s.pool with free := s.pool.free ++ [old], episode := false } })
    ∧ (m.Legal → m.state = .full → m.fresh = true ∧ m.current.isSome = true)
    ∧ (m.Legal → m.state = .claimed ∨ m.state = .claimedNext → m.fresh = false)
    ∧ (m.Legal → m.state = .claimedNext → m.next.isSome = true)

/-- Each of the 72 buffers is at every moment in exactly one place (R100): every step keeps it so. -/
def Obligations.EveryBufferStaysInOnePlace : Prop :=
  ∀ s t : State, s.BuffersLegal → step s = .next t → t.BuffersLegal

/-! ## Event Queue (chapter 9) -/

/-- POP (R148): the head leaves, its buffer joins the free list, and a drop count above 0 is delivered as OVERFLOW. -/
def Obligations.PopDeliversTheDropCount : Prop :=
  ∀ s : State, s.inReset = false →
    (s.events.entries = [] → exec .pop s = .next (s.refused 0x60 .empty))
    ∧ ∀ e rest, s.events.entries = e :: rest → s.events.load ≤ 32 →
      exec .pop s = .next { s with
        events := { s.events with
          entries := if s.events.drops = 0 then rest
            else rest ++ [{ kind := .overflow, line := none, code := s.events.drops, cycle := s.timer.cycleCount }]
          drops := 0 }
        pool := { s.pool with
          free := s.pool.free ++ e.buffer.toList, episode := s.pool.episode && e.buffer.isNone }
        host := s.host.accepted 0x60 }

/-- Every step keeps the bounds of the queues (R130, R143, R144): 32 entries and reservations, one reservation for each request in progress,
4 requests waiting on a line, each of which has passed the checks of POST (R129). An unreserved append that finds room is placed at the tail;
one that finds entries and reservations at 32 places nothing and raises the drop count, which stays at 255 (R146). A reserved append always
lands, and ends its line's reservation (R145). -/
def Obligations.QueuesStayInBounds : Prop :=
  (∀ s t : State, s.QueuesLegal → step s = .next t → t.QueuesLegal)
  ∧ (∀ q : EventQueue, q.load = q.entries.length
      + (if q.reserved.a = true then 1 else 0) + (if q.reserved.b = true then 1 else 0))
  ∧ (∀ (q : EventQueue) (e : Event), q.apply (.plain e) = q.append e
    ∧ ∀ l, q.apply (.reserved l e) = { q with entries := q.entries ++ [e], reserved := q.reserved.set l false })
  ∧ ∀ (q : EventQueue) (e : Event),
    (q.load < 32 → q.append e = { q with entries := q.entries ++ [e] })
    ∧ (32 ≤ q.load → q.append e = { q with drops := (q.append e).drops }
        ∧ (q.drops.toNat < 255 → (q.append e).drops.toNat = q.drops.toNat + 1)
        ∧ (q.drops = 255 → (q.append e).drops = 255))

/-! ## Output images (chapter 7) -/

/-- An image's live copy and generation change together, by a publication of its staged copy (R119); window writes alone change a staged copy
(R120), and they leave the live copy and the generation as they are. -/
def Obligations.LiveCopyAndGenerationChangeTogether : Prop :=
  ∀ (c : Instr) (s t : State) (n : Fin 64), exec c s = .next t → ¬ isReset c →
    let old := s.images.images[n]
    let new := t.images.images[n]
    (new.live ≠ old.live ∨ new.generation ≠ old.generation →
      new = { old with live := old.staged, generation := old.generation + 1 })
    ∧ (new.staged ≠ old.staged →
      new = { old with staged := new.staged }
      ∧ ∃ v, c = .winDataWrite v ∨ c = .winPeekWrite v ∨ c = .registerWrite 0x0B v ∨ c = .registerWrite 0x0C v)

/-! ## Acyclic requests (chapter 8) -/

/-- The checks of POST, item 3 of R129. -/
def Sys2Proof.Machine.Descriptor.Passes (d : Descriptor) : Prop :=
  ¬ (d.kind = 0 ∨ d.kind = 7 ∨ 15 < d.kind.toNat)
  ∧ ¬ ((d.kind = 6 ∧ d.station ≠ 63) ∨ (d.station = 63 ∧ d.kind ≠ 6))
  ∧ (1 ≤ d.station.toNat ∧ d.station.toNat ≤ 63)
  ∧ d.requestLength.toNat ≤ 32
  ∧ ¬ ((d.kind = 1 ∨ d.kind = 4 ∨ d.kind = 5) ∧ d.requestLength ≠ 0)
  ∧ (d.replyLength.toNat ≤ 32 ∨ d.replyLength = 255)
  ∧ d.retryLimit.toNat ≤ 3
  ∧ d.reservation ≠ 0
  ∧ (1 ≤ d.replyWindow.toNat ∧ d.replyWindow.toNat ≤ 1023)
  ∧ (d.allowOffline = 0 ∨ d.allowOffline = 1)

/-- POST and CANCEL (R129, R138): the first refusal that applies, or the whole staging descriptor at the tail; the oldest queued request with
the tag removed, before the request in progress is looked at. -/
def Obligations.PostAndCancelFollowTheirOrder : Prop :=
  ∀ s : State, s.inReset = false →
    (lineArg s.host.arg0 = none →
      exec .post s = .next (s.refused 0x50 .badArgument) ∧ exec .cancel s = .next (s.refused 0x51 .badArgument))
    ∧ ∀ l, lineArg s.host.arg0 = some l →
      let q := s.acyclic.get l
      (4 ≤ q.queue.length → exec .post s = .next (s.refused 0x50 .full))
      ∧ (q.queue.length < 4 → ¬ q.staging.Passes → exec .post s = .next (s.refused 0x50 .badArgument))
      ∧ (q.queue.length < 4 → q.staging.Passes →
        exec .post s = .next { s.setAcyclic l { q with queue := q.queue ++ [q.staging] } with
          host := s.host.accepted 0x50 })
      ∧ (∀ before d behind, q.queue = before ++ d :: behind → d.tag = s.host.arg1 →
        (∀ x ∈ before, x.tag ≠ s.host.arg1) →
        exec .cancel s = .next { s.setAcyclic l { q with queue := before ++ behind } with host := s.host.accepted 0x51 })
      ∧ ((∀ x ∈ q.queue, x.tag ≠ s.host.arg1) →
        exec .cancel s = .next (s.refused 0x51
          (if (s.engine l).request.any (fun r => r.desc.tag == s.host.arg1) = true then .tooLate else .notFound)))

/-- The table of R134, and a BROADCAST, which is always sent. -/
def Sys2Proof.Machine.Sendable (s : State) (l : Line) (d : Descriptor) : Prop :=
  ∀ i, stationIx d.station = some i →
    let bare := d.kind = kindRead ∨ d.kind = kindStatus ∨ d.kind = kindResync
    match (s.station l i).health with
    | .online => True
    | .suspect => True
    | .unknown => bare
    | .offline => bare ∧ d.allowOffline = 1
    | .parked => False

/-- ACYCLIC_START (R131, R133 to R135): with room in the Event Queue and time for it, the head of the queue is sent or completes NOT_READY;
else nothing starts. -/
def Obligations.AcyclicStartSendsOrIsNotReady : Prop :=
  ∀ (s : State) (l : Line), s.inReset = false →
    ((s.engine l).state ≠ .wait ∨ (s.engine l).slot.any (·.isOpen) = false ∨ (s.engine l).request.isSome = true
        ∨ (s.acyclic.get l).queue = [] ∨ 32 ≤ s.events.load →
      exec (.acyclicStart l) s = .next s)
    ∧ ∀ c d rest, (s.engine l).Legal → (s.engine l).state = .wait → (s.engine l).slot = some c → c.isOpen = true →
      (s.engine l).request = none → (s.acyclic.get l).queue = d :: rest → s.events.load < 32 → 1 ≤ d.reservation.toNat →
      (timeRemaining s c < d.reservation.toNat → exec (.acyclicStart l) s = .next s)
      ∧ (c.noticeHeld = true → s.timer.value.toNat + d.reservation.toNat ≤ c.budgetEnd.toNat →
        let granted := s.withEvents { s.events with reserved := s.events.reserved.set l true }
        (Sendable s l d → ∃ t, exec (.acyclicStart l) s = .next t
          ∧ (s.engine l).Sends (t.engine l) d.station d.kind (if d.kind = kindWrite ∨ d.kind = kindResync then 0 else d.replyLength)
              d.replyWindow (isSequenced d.kind && (stationIx d.station).any fun i => (s.station l i).s)
              (d.payload.toList.take d.requestLength.toNat)
          ∧ (t.engine l).request = some { desc := d, cycle := c.cycle, index := c.index, attempts := 1 }
          ∧ (t.engine l).slot = some c ∧ (t.engine l).snapshot = (s.engine l).snapshot
          ∧ (t.engine l).next = (s.engine l).next ∧ (t.engine l).walk = (s.engine l).walk
          ∧ TakesBuffer granted l (d.kind != kindBroadcast)
              { station := d.station, cycle := c.cycle, index := 255, tag := d.tag } t
          ∧ (s.engine l).SameSettings (t.engine l) ∧ t.engine (otherLine l) = s.engine (otherLine l)
          ∧ t = { s.setAcyclic l { s.acyclic.get l with queue := rest } with
              lines := t.lines, pool := t.pool, events := t.events })
        ∧ (¬ Sendable s l d →
          exec (.acyclicStart l) s = .next { s.setAcyclic l { s.acyclic.get l with queue := rest } with
            lines := s.lines.set l { s.engine l with slot := some { c with carried := false } }
            events := { s.events with
              entries := s.events.entries ++
                [{ kind := .acyclicDone, line := some l, station := d.station, code := 13, cycle := c.cycle, tag := d.tag,
                   entryIndex := BitVec.ofNat 8 c.index.val }]
              reserved := s.events.reserved.set l false } }))

/-- A reply judged OK or REFUSED as a whole completes the acyclic request (R72, R136, R137): its reserved event lands, with the buffer the
engine holds, and the record takes the report. That the event and the station's own come in either order is log 5; that the OPEN slot is
carried into the frame gap when no time remains is log 11. -/
def Obligations.JudgedReplyCompletesTheRequest : Prop :=
  ∀ (s : State) (l : Line) (a : Attempt) (r : Reply) (c : Slot) (q : Request) (x : RxChar) (o : Outcome) (i : Fin 62)
    (place : EdgePlace) (captured arrival : Capture),
    s.inReset = false → (s.engine l).state = .receive → (s.engine l).attempt = some a → a.reply = some r →
    a.arrival = some arrival → (s.engine l).Legal → (s.engine l).request = some q → (s.engine l).slot = some c →
    stationIx a.station = some i → Receives s l place captured →
    judgeNext a r x = .whole o r → o = .ok ∨ o = .refused →
    let p : Report := { kind := q.desc.kind, outcome := o, nibble := some r.nibble, cycle := q.cycle, index := 255,
                        tag := q.desc.tag, attempts := q.attempts }
    let record := (s.station l i).report p (s.engine l).failThreshold (s.engine l).probeInterval
    let done : Event := { kind := .acyclicDone, line := some l, station := q.desc.station, code := outcomeCode o,
                          cycle := q.cycle, tag := q.desc.tag, entryIndex := BitVec.ofNat 8 q.index.val,
                          bufferLength := if (s.engine l).held.isSome = true then r.length else 0, nibble := r.nibble,
                          attempts := q.attempts, buffer := (s.engine l).held }
    ∃ t, exec (.receivedCharacter l x.byte x.head x.framing) s = .next t
      ∧ t.engine l = { (s.engine l).received x.framing with
          state := .gap, attempt := none, tx := none, elapsed := 0, failed := none, request := none, held := none
          slot := some { c with carried := decide (timeRemaining s c = 0) } }
      ∧ t.engine (otherLine l) = s.engine (otherLine l)
      ∧ t.stations = (s.setStation l i record).stations
      ∧ s.events.entries <+: t.events.entries ∧ t.events.reserved = s.events.reserved.set l false
      ∧ done ∈ t.events.entries.drop s.events.entries.length
      ∧ (s.events.load + 2 ≤ 32 → s.events.reserved.get l = true → t.events.drops = s.events.drops
          ∧ ∀ e ∈ stationEvents l a.station (s.engine l).mask (s.station l i) record p,
              e ∈ t.events.entries.drop s.events.entries.length)
      ∧ ((s.engine l).held = none → t.pool = s.pool)
      ∧ (∀ b, (s.engine l).held = some b → t.pool = { s.pool with
          buffers := setAt s.pool.buffers b { s.pool.buffers[b] with
            line := l, station := a.station, kind := a.kind, nibble := r.nibble, seqBit := r.seqBit, length := r.length,
            cycle := arrival.cycle, arrival := arrival.value, label := q.desc.tag } })
      ∧ t = { s with
          lines := t.lines, stations := t.stations, events := t.events, pool := t.pool, choices := t.choices }

/-! ## Host Port (chapter 10) -/

/-- The window addresses that section 11.2 names. -/
def Sys2Proof.Machine.Mapped (n : Nat) : Prop :=
  n < 0x0804 ∨ (0x0900 ≤ n ∧ n < 0x0B00) ∨ (0x1010 ≤ n ∧ n < 0x13F0) ∨ (0x1410 ≤ n ∧ n < 0x17F0)
  ∨ (0x2000 ≤ n ∧ n < 0x3080) ∨ (0x4000 ≤ n ∧ n < 0x4C00) ∨ (0x5000 ≤ n ∧ n < 0x5033)
  ∨ (0x6000 ≤ n ∧ n < 0x602B) ∨ (0x6040 ≤ n ∧ n < 0x606B) ∨ (0x6100 ≤ n ∧ n < 0x6180)

/-- Where the window addresses lead (section 11.2): the line, the number of the record and the byte of it. -/
def Sys2Proof.Machine.WindowPlaces : Prop :=
  let named := fun n : Nat => winTarget (BitVec.ofNat 16 n)
  (∀ l : Line,
    let line := if l = .a then 0 else 1
    (∀ (i : Fin 32) (k : Nat), k < 16 →
      named (0x0000 + 0x200 * line + 16 * i.val + k) = .pendingEntry l i k
      ∧ named (0x0400 + 0x200 * line + 16 * i.val + k) = .activeEntry l i k)
    ∧ named (0x0800 + line) = .pendingCount l ∧ named (0x0802 + line) = .activeCount l
    ∧ (∀ (i : Fin 32) (k : Nat), k < 8 → named (0x0900 + 0x100 * line + 8 * i.val + k) = .result l i k)
    ∧ (∀ (address : Byte) (i : Fin 62) (k : Nat), stationIx address = some i → k < 16 →
      named (0x1000 + 0x400 * line + 16 * address.toNat + k) = .station l i k)
    ∧ (∀ k < 43, named (0x6000 + 0x40 * line + k) = .staging l k)
    ∧ ∀ p < 4, ∀ k < 16, named (0x6100 + 0x40 * line + 16 * p + k) = .queueView l p k)
  ∧ (∀ n : Fin 64,
    (∀ k < 32, named (0x2000 + 32 * n.val + k) = .staged n k ∧ named (0x2800 + 32 * n.val + k) = .live n k)
    ∧ named (0x3000 + n.val) = .generation n ∧ named (0x3040 + n.val) = .marked n)
  ∧ (∀ m : Fin 48,
    (∀ k < 16, named (0x4000 + 64 * m.val + k) = .mailboxPart m k
      ∧ named (0x4000 + 64 * m.val + 16 + k) = .mailboxHeader m k)
    ∧ ∀ k < 32, named (0x4000 + 64 * m.val + 32 + k) = .mailboxPayload m k)
  ∧ (∀ k < 16, named (0x5000 + k) = .eventHeader k) ∧ (∀ k < 32, named (0x5010 + k) = .eventPayload k)
  ∧ ∀ k < 3, named (0x5030 + k) = .eventBufferHeader k

/-- The two bytes of a 16-bit field, the less significant first (chapter 11, introduction). -/
def Sys2Proof.Machine.twoBytes (h : Half) : List Byte := [h.setWidth 8, h.extractLsb' 8 8]

/-- A flag in a byte of its own. -/
def Sys2Proof.Machine.flagByte (b : Bool) : Byte := if b = true then 1 else 0

/-- A buffer number, 255 when absent (sections 11.7, 11.8). -/
def Sys2Proof.Machine.numberByte (b : Option (Fin 72)) : Byte :=
  match b with
  | some i => BitVec.ofNat 8 i.val
  | none => 255

/-- The outcomes in the order of their codes (section 11.10). -/
def Sys2Proof.Machine.outcomes : List Outcome :=
  [.none, .ok, .refused, .timeout, .check, .broken, .length, .address, .sequence, .conflict, .squeezed, .skipped, .aborted,
   .notReady]

/-- The bytes of a schedule entry and of an acyclic descriptor, in the order of sections 11.3 and 11.9. -/
def Sys2Proof.Machine.Entry.layout (e : Entry) : List Byte :=
  twoBytes e.offset
    ++ [e.station, e.kind, e.requestLength, e.replyLength, e.image, e.mailbox] ++ twoBytes e.reservation ++ twoBytes e.replyWindow
    ++ [e.retryLimit, e.divider, e.phase, e.label]
def Sys2Proof.Machine.Descriptor.layout (d : Descriptor) : List Byte :=
  [d.tag, d.station, d.kind, d.requestLength, d.replyLength, d.retryLimit]
    ++ twoBytes d.reservation ++ twoBytes d.replyWindow ++ [d.allowOffline] ++ d.payload.toList

/-- The layouts of the records that the window shows (sections 11.3 to 11.5, 11.7 to 11.9; codes by section 11.10; R169). -/
def Sys2Proof.Machine.WindowLayouts : Prop :=
  (∀ o : Outcome, outcomes[(outcomeCode o).toNat]? = some o)
  ∧ (∀ h : Health, [Health.unknown, .online, .suspect, .offline, .parked][(healthCode h).toNat]? = some h)
  ∧ (∀ e : Entry, (List.range 16).map (entryByte e) = e.layout)
  ∧ (∀ d : Descriptor, (List.range 43).map (descriptorByte d) = d.layout)
  ∧ (∀ r : SlotResult, ∃ code flags,
    resultBytes r = [code, flags] ++ twoBytes r.arrival ++ twoBytes r.cycle ++ [r.generation, r.lateness]
    ∧ outcomes[code.toNat]? = some r.outcome ∧ flags.toNat % 8 = r.attempts % 8
    ∧ flags.getLsbD 3 = false ∧ flags.getLsbD 4 = r.resync ∧ flags.getLsbD 5 = r.afterBoundary
    ∧ flags.getLsbD 6 = r.startedLate ∧ flags.getLsbD 7 = false)
  ∧ (∀ r : Station, ∃ health last,
    stationBytes r = [health, r.failCount, flagByte r.s, r.nibble.setWidth 8, r.probe, last]
      ++ twoBytes r.lastOkCycle ++ twoBytes r.okCount ++ twoBytes r.failureCount ++ twoBytes r.timeoutCount
      ++ twoBytes r.corruptCount
    ∧ [Health.unknown, .online, .suspect, .offline, .parked][health.toNat]? = some r.health
    ∧ outcomes[last.toNat]? = some r.lastOutcome)
  ∧ (∀ m : Mailbox, ∃ state,
    mailboxBytes m = [state, flagByte m.fresh, m.overwrites] ++ twoBytes m.publishes
      ++ [numberByte m.current, numberByte m.next] ++ List.replicate 9 0
    ∧ [MailboxState.empty, .full, .claimed, .claimedNext][state.toNat]? = some m.state)
  ∧ (∀ b : Buffer, (List.range 16).map (bufferHeaderByte b) =
    [if b.line = .a then 0 else 1, b.station, b.kind, b.nibble.setWidth 8, flagByte b.seqBit, b.length]
      ++ twoBytes b.cycle ++ twoBytes b.arrival ++ [b.label] ++ List.replicate 5 0)
  ∧ ∀ (buffers : Vector Buffer 72) (e : Event), ∃ kind,
    eventBytes buffers e = [kind, if e.line = none then 255 else if e.line = some .a then 0 else 1, e.station, e.code]
      ++ twoBytes e.cycle ++ [e.tag, e.entryIndex, flagByte e.buffer.isSome, e.bufferLength, e.nibble.setWidth 8,
        BitVec.ofNat 8 e.attempts, numberByte e.buffer]
      ++ (match e.buffer with
        | some b => twoBytes buffers[b].arrival ++ [flagByte buffers[b].seqBit]
        | none => [0, 0, 0])
    ∧ 1 ≤ kind.toNat
    ∧ [EventKind.acyclicDone, .stationOnline, .stationOffline, .statusChange, .cycleOverrun, .changeoverDone, .changeoverRefused,
        .copyDone, .syncLost, .syncRegained, .poolEmpty, .overflow][kind.toNat - 1]? = some e.kind

/-- The latchable record and the byte of it that a window place names (R159). -/
def Sys2Proof.Machine.recordAt (s : State) (place : WinTarget) : Option (RecordId × List Byte × Nat) :=
  match place with
  | .result l i k => some (.result l i, resultBytes (s.schedule.results.get l)[i], k)
  | .station l a k => some (.station l a, stationBytes (s.station l a), k)
  | .mailboxPart m k => some (.mailbox m, mailboxBytes s.mailboxes[m], k)
  | .eventHeader k => some (.eventHead, headBytes s, k)
  | _ => none

/-- The byte that a place of the window holds, for the places that are not latched and whose read does nothing else, by the layouts of
sections 11.3 and 11.6 to 11.9 (R33, R116, R120, R121, R125, R128, R130, R150): the active schedule, the pending one while no copy runs, the
images, the marked set, the staging descriptors, the queue views, a mailbox's buffer under a claim, and the buffer of the event head. -/
def Sys2Proof.Machine.byteAt (s : State) (place : WinTarget) : Option Byte :=
  match place with
  | .activeEntry l i k => some (entryByte (s.schedule.activeBank.get l).entries[i] k)
  | .activeCount l => some (s.schedule.activeBank.get l).count
  | .pendingEntry l i k =>
    if s.schedule.copy = none then some (entryByte (s.schedule.pendingBank.get l).entries[i] k) else none
  | .pendingCount l => if s.schedule.copy = none then some (s.schedule.pendingBank.get l).count else none
  | .staged n k => some (s.images.images[n].staged.toList.getD k 0)
  | .live n k => some (s.images.images[n].live.toList.getD k 0)
  | .generation n => some s.images.images[n].generation
  | .marked n => some (if s.images.marked[n] = true then 1 else 0)
  | .staging l k => some (descriptorByte (s.acyclic.get l).staging k)
  | .queueView l p k => some (match (s.acyclic.get l).queue[p]? with
    | some d => if k = 0 then 1 else if k ≤ 11 then descriptorByte d (k - 1) else 0
    | none => 0)
  | .mailboxHeader m k =>
    if s.mailboxes[m].state = .claimed ∨ s.mailboxes[m].state = .claimedNext then
      s.mailboxes[m].current.map fun b => bufferHeaderByte s.pool.buffers[b] k
    else none
  | .eventPayload k => some (match s.events.entries.head?.bind (·.buffer) with
    | some b => if k < s.pool.buffers[b].length.toNat then s.pool.buffers[b].payload.toList.getD k 0 else 0
    | none => 0)
  | .eventBufferHeader k => some (match s.events.entries.head?.bind (·.buffer) with
    | some b => if k = 0 then lowByte s.pool.buffers[b].cycle else if k = 1 then highByte s.pool.buffers[b].cycle
        else s.pool.buffers[b].kind
    | none => 0)
  | _ => none

/-- A read of a byte of the pending schedule while a copy runs (R33, R47): a byte already copied or one not yet reached, and nothing but the
copy's progress moves with it (log 6). `byte` is the byte's place in a bank. -/
def Sys2Proof.Machine.ReadsMidCopy (s : State) (byte : Bank → Byte) : Prop :=
  s.schedule.copy.isSome = true → ∃ t v, exec .winPeekRead s = .next t
    ∧ (v = byte s.schedule.pendingBank ∨ v = byte s.schedule.activeBank)
    ∧ t.host = { s.host with data := some v } ∧ byte t.schedule.pendingBank = v
    ∧ t.schedule.activeBank = s.schedule.activeBank ∧ t.schedule.copy.isSome = true
    ∧ t = { s with
        schedule := { s.schedule with bank0 := t.schedule.bank0, bank1 := t.schedule.bank1, copy := t.schedule.copy }
        host := t.host, choices := t.choices }

/-- Window reads (R157 to R160, R116): WIN_DATA moves the pointer on by one after every access, WIN_PEEK leaves it; an unmapped address reads 0
with WIN_ERROR; byte 0 of a latchable record latches it whole, and its other bytes come from the latch while that holds the record, else
from the record; every other place answers its byte and changes nothing else; a mailbox's buffer is read only under a claim; and the event
head reads zeros while the queue is empty. Which line, record and byte an address names is section 11.2, and how the records are laid out
sections 11.3 to 11.9. How far a running copy has come when the pending schedule is read is log 6. -/
def Obligations.WindowReadsLatchAndMoveOn : Prop :=
  (∀ address : Half, winTarget address = .unmapped ↔ ¬ Mapped address.toNat)
  ∧ WindowPlaces ∧ WindowLayouts
  ∧ ∀ s : State, s.inReset = false →
    let place := winTarget s.host.ptr
    (∃ u v, exec .winPeekRead s = .next u ∧ u.host.ptr = s.host.ptr ∧ u.host.data = some v
      ∧ exec .winDataRead s = .next { u with host := { u.host with ptr := s.host.ptr + 1 } })
    ∧ (place = .unmapped →
      exec .winPeekRead s = .next { s with host := { s.host with winError := true, data := some 0 } })
    ∧ (∀ m k, place = .mailboxHeader m k ∨ place = .mailboxPayload m k →
      s.mailboxes[m].state = .empty ∨ s.mailboxes[m].state = .full →
      exec .winPeekRead s = .next { s with host := { s.host with winError := true, data := some 0 } })
    ∧ (∀ m k b, place = .mailboxPayload m k → s.mailboxes[m].state = .claimed ∨ s.mailboxes[m].state = .claimedNext →
      s.mailboxes[m].current = some b →
      exec .winPeekRead s = .next { s with host := { s.host with
        data := some (if k < s.pool.buffers[b].length.toNat then s.pool.buffers[b].payload[k]?.getD 0 else 0) } })
    ∧ (∀ v, byteAt s place = some v → exec .winPeekRead s = .next { s with host := { s.host with data := some v } })
    ∧ (∀ l i k, place = .pendingEntry l i k → ReadsMidCopy s fun b => entryByte (b.get l).entries[i] k)
    ∧ (∀ l, place = .pendingCount l → ReadsMidCopy s fun b => (b.get l).count)
    ∧ (∀ id bytes k, recordAt s place = some (id, bytes, k) →
      (k = 0 → exec .winPeekRead s = .next { s with host := { s.host with
        latch := some { id := id, bytes := bytes }, data := some (bytes.getD 0 0) } })
      ∧ (k ≠ 0 → ∀ c, s.host.latch = some c → c.id = id →
        exec .winPeekRead s = .next { s with host := { s.host with data := some (c.bytes.getD k 0) } })
      ∧ (k ≠ 0 → (∀ c, s.host.latch = some c → c.id ≠ id) →
        exec .winPeekRead s = .next { s with host := { s.host with data := some (bytes.getD k 0) } }))
    ∧ (s.events.entries = [] → headBytes s = List.replicate 16 0)

/-- Window writes (R33, R120, R128, R157, R158): the pending view takes a byte only in changeover state NONE with no copy running, else
WIN_LOCKED; staged images and staging descriptors take it in every state; every other place and every unmapped address ignores it with
WIN_ERROR. A written entry or descriptor differs in the byte written alone, in the order of sections 11.3 and 11.9; the places are those of
section 11.2. -/
def Obligations.WindowWritesObeyTheirRegions : Prop :=
  WindowPlaces
  ∧ (∀ (e : Entry) (k : Nat) (v : Byte), k < 16 → (entryWith e k v).layout = e.layout.set k v)
  ∧ (∀ (d : Descriptor) (k : Nat) (v : Byte), k < 43 → (descriptorWith d k v).layout = d.layout.set k v)
  ∧ ∀ (s : State) (v : Byte), s.inReset = false →
    let place := winTarget s.host.ptr
    let quiet := { s.host with data := none }
    let locked := s.schedule.changeover ≠ .none ∨ s.schedule.copy.isSome = true
    (∃ u, exec (.winPeekWrite v) s = .next u ∧ u.host.ptr = s.host.ptr ∧ u.host.data = none
      ∧ exec (.winDataWrite v) s = .next { u with host := { u.host with ptr := s.host.ptr + 1 } })
    ∧ (∀ l i k, place = .pendingEntry l i k ∨ place = .pendingCount l → locked →
      exec (.winPeekWrite v) s = .next { s with host := { quiet with winLocked := true } })
    ∧ (∀ l i k, place = .pendingEntry l i k → ¬ locked → ∃ t, exec (.winPeekWrite v) s = .next t
      ∧ (t.schedule.pendingBank.get l).entries[i] = entryWith (s.schedule.pendingBank.get l).entries[i] k v
      ∧ (∀ j, j ≠ i → (t.schedule.pendingBank.get l).entries[j] = (s.schedule.pendingBank.get l).entries[j])
      ∧ (t.schedule.pendingBank.get l).count = (s.schedule.pendingBank.get l).count
      ∧ t.schedule.pendingBank.get (otherLine l) = s.schedule.pendingBank.get (otherLine l)
      ∧ t.schedule.activeBank = s.schedule.activeBank
      ∧ t = { s with
          schedule := { s.schedule with bank0 := t.schedule.bank0, bank1 := t.schedule.bank1 }, host := quiet })
    ∧ (∀ l, place = .pendingCount l → ¬ locked → ∃ t, exec (.winPeekWrite v) s = .next t
      ∧ t.schedule.pendingBank.get l = { s.schedule.pendingBank.get l with count := v }
      ∧ t.schedule.pendingBank.get (otherLine l) = s.schedule.pendingBank.get (otherLine l)
      ∧ t.schedule.activeBank = s.schedule.activeBank
      ∧ t = { s with
          schedule := { s.schedule with bank0 := t.schedule.bank0, bank1 := t.schedule.bank1 }, host := quiet })
    ∧ (∀ n k, place = .staged n k →
      let image := { s.images.images[n] with staged := s.images.images[n].staged.setIfInBounds k v }
      exec (.winPeekWrite v) s = .next { s with
        images := { s.images with images := setAt s.images.images n image }, host := quiet })
    ∧ (∀ l k, place = .staging l k →
      let store := { s.acyclic.get l with staging := descriptorWith (s.acyclic.get l).staging k v }
      exec (.winPeekWrite v) s = .next { s.setAcyclic l store with host := quiet })
    ∧ ((∀ l i k, place ≠ .pendingEntry l i k) → (∀ l, place ≠ .pendingCount l) → (∀ n k, place ≠ .staged n k) →
      (∀ l k, place ≠ .staging l k) →
      exec (.winPeekWrite v) s = .next { s with host := { quiet with winError := true } })

/-- What the direct registers read in every state (R155, section 11.1, codes by section 11.10): the Host Port's own, the views of the timer, of
the Schedule Store, of the pool and of the Event Queue (R147), and 0 at the offsets without a register and in unused positions (R168). The
latched high bytes are LowByteReadsLatchTheHighByte's, IRQ_STATUS and the window's offsets their own statements'. -/
def Sys2Proof.Machine.RegistersRead (s : State) : Prop :=
  directRead s 0x00 = 0xB6 ∧ directRead s 0x01 = 0x01
  ∧ ((directRead s 0x02).getLsbD 0 = s.host.winError ∧ (directRead s 0x02).getLsbD 1 = s.host.winLocked
    ∧ (directRead s 0x02).getLsbD 2 = s.host.setLocked ∧ (directRead s 0x02).getLsbD 3 = s.host.cmdRefused
    ∧ ((directRead s 0x02).getLsbD 7 = true ↔ s.host.cause = .soft)
    ∧ ∀ n, n = 4 ∨ n = 5 ∨ n = 6 → (directRead s 0x02).getLsbD n = false)
  ∧ ((∀ n < 3, (directRead s 0x03).getLsbD n = s.host.irqEnable.getLsbD n)
    ∧ ∀ n, 3 ≤ n → (directRead s 0x03).getLsbD n = false)
  ∧ directRead s 0x05 = s.host.cmd ∧ directRead s 0x06 = s.host.arg0 ∧ directRead s 0x07 = s.host.arg1
  ∧ [CmdStatus.none, .accepted, .badCommand, .badArgument, .wrongState, .busy, .full, .empty, .notFound, .tooLate, .notClaimed,
      .alreadyClaimed][(directRead s 0x08).toNat]? = some s.host.status
  ∧ directRead s 0x0A ++ directRead s 0x09 = s.host.ptr
  ∧ (((directRead s 0x10).getLsbD 0 = true ↔ s.timer.mode = .follow) ∧ (directRead s 0x10).getLsbD 1 = s.timer.syncOutEnable
    ∧ ∀ n, 2 ≤ n → (directRead s 0x10).getLsbD n = false)
  ∧ directRead s 0x11 = s.timer.prescaler ∧ directRead s 0x13 ++ directRead s 0x12 = s.timer.period
  ∧ directRead s 0x14 = s.timer.window
  ∧ ([TimerState.stopped, .running, .stopping, .single][(directRead s 0x15).toNat % 4]? = some s.timer.state
    ∧ [SyncState.notUsed, .seeking, .locked, .holdover][(directRead s 0x15).toNat / 16]? = some s.timer.sync
    ∧ (directRead s 0x15).toNat % 16 < 4)
  ∧ directRead s 0x16 = s.timer.value.setWidth 8 ∧ directRead s 0x18 = s.timer.cycleCount.setWidth 8
  ∧ directRead s 0x1A = s.timer.early
  ∧ ([ChangeoverState.none, .checking, .armed][(directRead s 0x1B).toNat % 4]? = some s.schedule.changeover
    ∧ (directRead s 0x1B).getLsbD 4 = s.schedule.active
    ∧ (directRead s 0x1B).getLsbD 5 = s.schedule.copy.isSome
    ∧ ∀ n, n = 2 ∨ n = 3 ∨ n = 6 ∨ n = 7 → (directRead s 0x1B).getLsbD n = false)
  ∧ directRead s 0x1C = s.schedule.changeovers.setWidth 8
  ∧ (s.pool.free.length ≤ 72 → (directRead s 0x3C).toNat = s.pool.free.length)
  ∧ (s.events.entries.length ≤ 32 → (directRead s 0x3D).toNat = s.events.entries.length)
  ∧ directRead s 0x3E = s.events.drops ∧ directRead s 0x3F = s.pool.misses
  ∧ ∀ offset : BitVec 6, offset ∈ [0x0D, 0x0E, 0x0F, 0x1E, 0x1F, 0x2C, 0x2D, 0x2E, 0x2F] → directRead s offset = 0

/-- What the two line blocks read in every state (R56, R155, R168, section 11.1): the settings, the engine state by its code, the entry index of
the slot in progress or 255, and the two counters. -/
def Sys2Proof.Machine.LineBlocksRead (s : State) : Prop :=
  ∀ l : Line,
    let e := s.engine l
    let block := fun k : BitVec 6 => directRead s ((if l = .a then 0x20 else 0x30) + k)
    block 1 ++ block 0 = e.divisor ∧ block 2 = e.frameGap ∧ block 3 = e.charGap ∧ block 4 = e.failThreshold
    ∧ block 5 = e.probeInterval
    ∧ ((block 6).getLsbD 0 = e.echoCheck ∧ ∀ n, 1 ≤ n → (block 6).getLsbD n = false)
    ∧ ((block 7).getLsbD 0 = e.mask.stationOnline ∧ (block 7).getLsbD 1 = e.mask.stationOffline
      ∧ (block 7).getLsbD 2 = e.mask.statusChange ∧ (block 7).getLsbD 3 = e.mask.cycleOverrun
      ∧ ∀ n, 4 ≤ n → (block 7).getLsbD n = false)
    ∧ [EngineState.off, .wait, .transmit, .await, .receive, .quiet, .gap][(block 8).toNat]? = some e.state
    ∧ (∀ c, e.slot = some c → (block 9).toNat = c.index.val) ∧ (e.slot = none → block 9 = 0xFF)
    ∧ block 0xA = e.overruns ∧ block 0xB = e.strays

/-- The command codes (section 11.10). -/
def Sys2Proof.commandCodes : List (Byte × Instr) :=
  [(0x01, .cycleStart), (0x02, .cycleStop), (0x03, .cycleSingle), (0x10, .changeover), (0x11, .abortChangeover),
   (0x12, .copyActive), (0x20, .lineEnable), (0x21, .lineDisable), (0x28, .park), (0x29, .unpark), (0x2A, .clearCounters),
   (0x30, .publishImage), (0x31, .markImage), (0x32, .unmarkAll), (0x40, .claim), (0x41, .release), (0x42, .flush),
   (0x50, .post), (0x51, .cancel), (0x60, .pop), (0x7F, .softReset)]

/-- The offsets whose write is a row of its own, with that row (section 11.1; log 16). -/
def Sys2Proof.rowsOfWrites (v : Byte) : List (BitVec 6 × Instr) :=
  [(0x02, .hostStatusWrite v), (0x03, .irqEnableWrite v), (0x04, .irqStatusWrite v),
   (0x05, (commandOfCode v).getD (.badCommand v)), (0x0B, .winDataWrite v), (0x0C, .winPeekWrite v), (0x10, .cytModeWrite v),
   (0x11, .cytPrescaleWrite v), (0x12, .cytPeriodLowWrite v), (0x13, .cytPeriodHighWrite v), (0x14, .cytWindowWrite v),
   (0x3F, .poolMissesWrite v)]
  ++ [((0x20 : BitVec 6), Line.a), (0x30, Line.b)].flatMap fun block =>
    [(block.1, .divisorLowWrite block.2 v), (block.1 + 0x1, .divisorHighWrite block.2 v),
     (block.1 + 0x2, .lineSettingWrite block.2 .frameGap v), (block.1 + 0x3, .lineSettingWrite block.2 .charGap v),
     (block.1 + 0x4, .lineSettingWrite block.2 .failThreshold v), (block.1 + 0x5, .lineSettingWrite block.2 .probeInterval v),
     (block.1 + 0x6, .lineSettingWrite block.2 .lineFlags v), (block.1 + 0x7, .lineSettingWrite block.2 .eventMask v),
     (block.1 + 0xA, .overrunCounterWrite block.2 v), (block.1 + 0xB, .strayCounterWrite block.2 v)]

/-- The writes of HOST_STATUS, IRQ_STATUS and IRQ_ENABLE (R151, R152, R161, R24), what every direct register reads, HOST_STATUS and
IRQ_STATUS among them (R147, R155, R161, R168), and the interrupt line; the plain registers, the ignored offsets and the codes that name no
command, every code and offset by the tables of sections 11.1 and 11.10 (R155, R156, R162, R168). That a REGISTER_WRITE at an offset with a
row of its own is that row's write is log 16. -/
def Obligations.HostRegistersAndInterrupts : Prop :=
  (∀ s : State, RegistersRead s ∧ LineBlocksRead s)
  ∧ (∀ (code : Byte) (c : Instr), commandOfCode code = some c ↔ (code, c) ∈ commandCodes)
  ∧ (∀ (offset : BitVec 6) (v : Byte) (c : Instr), ownRowOfWrite offset v = some c ↔ (offset, c) ∈ rowsOfWrites v)
  ∧ ∀ (s : State) (v : Byte), s.inReset = false →
    let quiet := { s.host with data := none }
    exec (.hostStatusWrite v) s = .next { s with host := { quiet with
      winError := s.host.winError && !v.getLsbD 0, winLocked := s.host.winLocked && !v.getLsbD 1
      setLocked := s.host.setLocked && !v.getLsbD 2, cmdRefused := s.host.cmdRefused && !v.getLsbD 3 } }
    ∧ exec (.irqStatusWrite v) s = .next { s with
        timer := { s.timer with cycleFlag := s.timer.cycleFlag && !v.getLsbD 1 }, host := quiet }
    ∧ exec (.irqEnableWrite v) s = .next { s with host := { quiet with irqEnable := v.setWidth 3 } }
    ∧ ((directRead s 0x04).getLsbD 0 = true ↔ s.events.entries ≠ [])
    ∧ (directRead s 0x04).getLsbD 1 = s.timer.cycleFlag
    ∧ (directRead s 0x04).getLsbD 2 = (s.host.winError || s.host.winLocked || s.host.setLocked || s.host.cmdRefused)
    ∧ (∀ n, 3 ≤ n → (directRead s 0x04).getLsbD n = false)
    ∧ (s.irqDriven = true ↔ ∃ n < 3, (directRead s 0x04).getLsbD n = true ∧ s.host.irqEnable.getLsbD n = true)
    ∧ (∀ code, commandOfCode code = none → exec (.badCommand code) s = .next (s.refused code .badCommand))
    ∧ exec (.registerWrite 0x06 v) s = .next { s with host := { quiet with arg0 := v } }
    ∧ exec (.registerWrite 0x07 v) s = .next { s with host := { quiet with arg1 := v } }
    ∧ exec (.registerWrite 0x09 v) s = .next { s with host := { quiet with ptr := s.host.ptr.extractLsb' 8 8 ++ v } }
    ∧ exec (.registerWrite 0x0A v) s = .next { s with host := { quiet with ptr := v ++ s.host.ptr.setWidth 8 } }
    ∧ (∀ offset, ownRowOfWrite offset v = none → offset ≠ 0x06 → offset ≠ 0x07 → offset ≠ 0x09 → offset ≠ 0x0A →
      exec (.registerWrite offset v) s = .next { s with host := quiet })
    ∧ ∀ offset i, ownRowOfWrite offset v = some i → exec (.registerWrite offset v) s = exec i s

/-- The command gives a command of the host, by its own row or by a write of its code to CMD (R162, section 11.10; log 16 for the rows that
spell it). -/
def Sys2Proof.Machine.GivesCommand (c : Instr) (code : Byte) : Prop :=
  commandOfCode code = some c ∨ c = .badCommand code ∨ c = .registerWrite 0x05 code

/-- A command is answered ACCEPTED or refused with a status code; CMD takes its code. A refused command sets CMD_REFUSED, whether or not it
stood, and leaves the rest of the part as it was; an accepted one does not set it; nothing but a refusal sets it; and no command changes the
argument bytes (R161 to R163). -/
def Obligations.RefusalsLeaveThePartAsItWas : Prop :=
  ∀ (c : Instr) (s t : State), exec c s = .next t →
    (∀ code, s.inReset = false → GivesCommand c code →
      t.host.cmd = code ∧ t.host.status ≠ .none
      ∧ (t.host.status ≠ .accepted → t = s.refused code t.host.status ∧ t.host.cmdRefused = true)
      ∧ (t.host.status = .accepted → t.host.cmdRefused = true → s.host.cmdRefused = true))
    ∧ (s.host.cmdRefused = false → t.host.cmdRefused = true →
      ∃ code answer, answer ≠ .none ∧ answer ≠ .accepted ∧ t = s.refused code answer)
    ∧ (t.host.arg0 ≠ s.host.arg0 → isReset c ∨ ∃ v, c = .registerWrite 0x06 v)
    ∧ (t.host.arg1 ≠ s.host.arg1 → isReset c ∨ ∃ v, c = .registerWrite 0x07 v)

/-! ## The polled line protocol (chapter 1) -/

/-- One bit of the check calculation, by the generator polynomial x^16 + x^12 + x^5 + 1 (R5). -/
def Sys2Proof.Machine.checkBit (value : Half) (bit : Bool) : Half :=
  if value.getLsbD 15 = bit then value <<< 1 else (value <<< 1) ^^^ 0x1021

/-- The bytes of a request (R4, sections 1.3 and 1.4): a head with the address in bits 0 to 5, direction 0 and the sequence bit; the kind code
under a nibble of 0; the length; the payload; and the check value over all of these, high byte first. The kinds by their codes, those that
carry the send sequence and those that send outputs (R6, R7, R65). -/
def Sys2Proof.Machine.RequestsAreComposed : Prop :=
  (∀ (station kind : Byte) (seqBit : Bool) (payload : List Byte), payload.length ≤ 32 → ∃ code length high low,
    let head := requestHead station seqBit
    requestFrame station kind seqBit payload = [head, code, length] ++ payload ++ [high, low]
    ∧ head.toNat % 64 = station.toNat % 64 ∧ head.getLsbD 6 = false ∧ head.getLsbD 7 = seqBit
    ∧ code.toNat = kind.toNat % 16 ∧ length.toNat = payload.length
    ∧ high ++ low = crc ([head, code, length] ++ payload))
  ∧ (∀ kind : Byte,
    (isSequenced kind = true ↔ kind = 2 ∨ kind = 3 ∨ (8 ≤ kind.toNat ∧ kind.toNat ≤ 15))
    ∧ (sendsOutputs kind = true ↔ kind = 2 ∨ kind = 3 ∨ kind = 6 ∨ (8 ≤ kind.toNat ∧ kind.toNat ≤ 15)))
  ∧ kindRead = 1 ∧ kindWrite = 2 ∧ kindExchange = 3 ∧ kindStatus = 4 ∧ kindResync = 5 ∧ kindBroadcast = 6 ∧ kindOpen = 16

/-- A request's bytes on the line (R4), and the check calculation (R5): from 0xFFFF, bit by bit, each byte's most significant bit first; over a
frame's bytes and its two check bytes it gives 0, and only the right check bytes do so. -/
def Obligations.CheckedFramesCheckToZero : Prop :=
  RequestsAreComposed
  ∧ (crc [] = 0xFFFF ∧ ∀ (bytes : List Byte) (b : Byte), crc (bytes ++ [b]) =
    [b.getLsbD 7, b.getLsbD 6, b.getLsbD 5, b.getLsbD 4, b.getLsbD 3, b.getLsbD 2, b.getLsbD 1, b.getLsbD 0].foldl
      checkBit (crc bytes))
  ∧ (∀ body : List Byte, checked body = body ++ [(crc body).extractLsb' 8 8, (crc body).setWidth 8])
  ∧ (∀ body : List Byte, crc (checked body) = 0)
  ∧ (∀ (body : List Byte) (high low : Byte), crc (body ++ [high, low]) = 0 ↔ high ++ low = crc body)
  ∧ crc [0x31, 0x32, 0x33, 0x34, 0x35, 0x36, 0x37, 0x38, 0x39] = 0x29B1
  ∧ crc [0x11, 0x01, 0x00] = 0x8BFE

/-- The characters of a frame: the head bit on the first only, every stop bit good (section 1.2). -/
def Sys2Proof.Machine.frameChars (bytes : List Byte) : List RxChar :=
  match bytes with
  | [] => []
  | h :: rest => { byte := h, head := true, framing := false } :: rest.map fun b => { byte := b, head := false, framing := false }

/-- The judgement of a reply's characters one after another, until one decides (R9, R10). -/
def Sys2Proof.Machine.judgeFrom (a : Attempt) (j : Judgement) (chars : List RxChar) : Judgement :=
  match j, chars with
  | .more r _, c :: rest => judgeFrom a (judgeNext a r c) rest
  | j, _ => j

/-- The bytes of a reply: the request's address with direction 1 and a sequence bit, a kind code under the status nibble, the length, the
payload and the check value (section 1.3). -/
def Sys2Proof.Machine.replyBytes (station code : Byte) (seqBit : Bool) (nibble : BitVec 4) (payload : List Byte) : List Byte :=
  checked ((((station &&& 0x3F) ||| 0x40) ||| (if seqBit = true then 0x80 else 0))
    :: ((nibble.setWidth 8 <<< 4) ||| (code &&& 0x0F)) :: BitVec.ofNat 8 payload.length :: payload)

/-- A reply is judged OK or REFUSED exactly when it is a conforming one: a frame with the request's address, direction 1, the request's kind
or code 0, a length of at most 32 that is the one expected where one is, the request's sequence bit for a sequenced kind, and its check value
(R5, R7, R9, R10). A kind of 0 is not sent in a request (R4). -/
def Obligations.RepliesAreAcceptedExactlyWhenConforming : Prop :=
  ∀ (a : Attempt) (c : RxChar) (rest : List RxChar) (o : Outcome), c.head = true → a.kind.toNat % 16 ≠ 0 →
    o = .ok ∨ o = .refused →
    ((∃ r, judgeFrom a (judgeHead a c) rest = .whole o r) ↔
      ∃ seqBit nibble payload after, c :: rest =
          frameChars (replyBytes a.station (if o = .ok then a.kind else 0) seqBit nibble payload) ++ after
        ∧ payload.length ≤ 32
        ∧ (o = .ok → a.expected ≠ 255 → payload.length = a.expected.toNat)
        ∧ (isSequenced a.kind = true → seqBit = a.seqBit))

/-! ## The two lines -/

/-- The event rows of a line's traffic. -/
def Sys2Proof.Machine.lineOf (c : Instr) : Option Line :=
  match c with
  | .slotBegin l | .characterTransmitted l | .receivedCharacter l _ _ _ | .falseStart l | .replyWindowExpiry l
  | .characterGapExpiry l | .quietIdleExpiry l | .quietLimitExpiry l | .frameGapEnd l | .openSlotEnd l | .acyclicStart l
  | .startEdge l | .rxReturnedTo1 l => some l
  | _ => none

/-- The lines work on their own: traffic on one leaves the other's engine, its stations, its acyclic queue, its results and its reservation, and
the timer, the banks, the images and the Host Port, as they were (chapter 4, introduction; R52, R143). -/
def Obligations.TrafficOnOneLineLeavesTheOther : Prop :=
  ∀ (c : Instr) (l : Line) (s t : State), lineOf c = some l → exec c s = .next t →
    let m := otherLine l
    t.engine m = s.engine m ∧ t.stations.get m = s.stations.get m ∧ t.acyclic.get m = s.acyclic.get m
    ∧ t.schedule.results.get m = s.schedule.results.get m ∧ t.events.reserved.get m = s.events.reserved.get m
    ∧ t.schedule = { s.schedule with results := t.schedule.results }
    ∧ t.timer = s.timer ∧ t.images = s.images ∧ t.host = s.host
    ∧ (t.acyclic.get l).staging = (s.acyclic.get l).staging

/-! ## The clock (log 2, log 10, log 17, log 18) -/

/-- The level of an input pin at its next sample, and the pin after it (log 10). -/
def Sys2Proof.Machine.InputPin.level' (p : InputPin) : Bool := p.upcoming.head?.getD p.level
def Sys2Proof.Machine.InputPin.after (p : InputPin) : InputPin := { level := p.level', upcoming := p.upcoming.tail }

/-- A line one reference clock period further: its spans, its sample clock and the character on TX (R1, R2). -/
def Sys2Proof.Machine.Engine.later (e : Engine) : Engine :=
  { e with
    elapsed := e.elapsed + 1, idle := e.idle + 1, sampleClock := e.sampleClock + 1
    tx := e.tx.map fun c => { c with clock := c.clock + 1 } }

/-- The part one reference clock period further, with nothing else come about: the sub-tick count runs while a cycle runs (R14), SYNC is
sampled in FOLLOW mode (R17; a falling edge is remembered when it is taken), the spans of both lines run (R1), and so does the age of a
check or a copy (R41, R47). -/
def Sys2Proof.Machine.State.later (s : State) : State :=
  { s with
    inputs := { s.inputs with sync := s.inputs.sync.after }
    timer := { s.timer with
      subTick := if s.timer.cycleRunning = true then s.timer.subTick + 1 else s.timer.subTick
      prevSync :=
        if s.timer.mode = .follow ∧ ¬ (s.timer.prevSync = some true ∧ s.inputs.sync.level' = false) then some s.inputs.sync.level'
        else s.timer.prevSync }
    lines := ⟨(s.engine .a).later, (s.engine .b).later⟩
    schedule := { s.schedule with age := s.schedule.age + 1 } }

/-- A span of the line has run out (R2, R8, R9, R11, R12), by engine state. -/
def Sys2Proof.Machine.Engine.SpanOver (e : Engine) : Prop :=
  match e.state with
  | .transmit => ∃ c, e.tx = some c ∧ 11 * e.bitTime ≤ c.clock
  | .await => ∃ a, e.attempt = some a ∧ a.windowOver = false ∧ a.replyWindow.toNat * e.bitTime ≤ e.elapsed
  | .receive => e.rx.char = none ∧ e.charGap.toNat * e.bitTime ≤ e.elapsed
  | .quiet => e.frameGap.toNat * e.bitTime ≤ e.idle ∨ ∃ a, e.attempt = some a ∧ a.replyWindow.toNat * e.bitTime ≤ e.elapsed
  | .gap => e.frameGap.toNat * e.bitTime ≤ e.elapsed
  | .off => False
  | .wait => False

/-- The line's settings are in their ranges, and so is the reply window of an attempt in flight (section 4.1, R6). -/
def Sys2Proof.Machine.Engine.SpansLegal (e : Engine) : Prop :=
  e.SettingsLegal ∧ ∀ a, e.attempt = some a → 1 ≤ a.replyWindow.toNat

/-- The line has seen a sample of RX (R3, R11): it is the previous sample of the next one, and a 0 ends the idle span. -/
def Sys2Proof.Machine.State.seen (s : State) (l : Line) (level : Bool) : State :=
  let e := s.engine l
  s.setEngine l { e with rx := { e.rx with prev := some level }, idle := if level = true then e.idle else 0 }

/-- What a sample of RX does at a line (R1, R3), `v` being the state with the sample taken at a level: nothing in
OFF; a start edge at a 0 after a 1; within a character one vote of three at sixteenths 6, 8 and 10 of each position, the position decided
at sixteenth 10, a false start by the start bit, and the character complete at the stop bit, the data bits least significant first. -/
def Sys2Proof.Machine.SampleActs (v : State) (l : Line) (level : Bool) (t : State) : Prop :=
  let e := v.engine l
  (e.state = .off → e.rx.char = none → t = v)
  ∧ (e.state ≠ .off → e.rx.char = none →
    (level = false → e.rx.prev = some true → exec (.startEdge l) v = .next t)
    ∧ (¬ (level = false ∧ e.rx.prev = some true) → t = v.seen l level))
  ∧ ∀ p, e.state ≠ .off → e.rx.char = some p →
    let n := p.count + 1
    let votes := if n % 16 = 6 ∨ n % 16 = 8 ∨ n % 16 = 10 then level :: p.votes else p.votes
    let bit := decide (2 ≤ votes.count true)
    let goesOn := fun p' : RxProgress => (v.setEngine l { e with rx := { e.rx with char := some p' } }).seen l level
    (n % 16 ≠ 10 → t = goesOn { p with count := n, votes := votes })
    ∧ (n % 16 = 10 → ¬ (n = 10 ∧ bit = true) → n ≠ 170 → t = goesOn { p with count := n, votes := [], bits := p.bits ++ [bit] })
    ∧ (n = 10 → bit = true → ∃ w, exec (.falseStart l) v = .next w ∧ t = w.seen l level)
    ∧ ∀ start d0 d1 d2 d3 d4 d5 d6 d7 head, n = 170 → p.bits = [start, d0, d1, d2, d3, d4, d5, d6, d7, head] →
      ∃ w, exec (.receivedCharacter l (BitVec.ofBoolListLE [d0, d1, d2, d3, d4, d5, d6, d7]) head (!bit)) v = .next w
        ∧ t = w.seen l level

/-- The row that names a line's moment (log 1). In RECEIVE with the line idle for a frame gap already, the end of the quiet
wait follows at once (R11). -/
def Sys2Proof.Machine.SpanActs (s : State) (l : Line) (t : State) : Prop :=
  let e := s.engine l
  (e.state = .transmit → exec (.characterTransmitted l) s = .next t)
  ∧ (e.state = .await → exec (.replyWindowExpiry l) s = .next t)
  ∧ (e.state = .receive →
    (e.idle < e.frameGap.toNat * e.bitTime ∨ e.rx.prev = some false → exec (.characterGapExpiry l) s = .next t)
    ∧ (e.frameGap.toNat * e.bitTime ≤ e.idle → e.rx.prev ≠ some false →
      ∃ w, exec (.characterGapExpiry l) s = .next w ∧ exec (.quietIdleExpiry l) w = .next t))
  ∧ (e.state = .quiet → e.frameGap.toNat * e.bitTime ≤ e.idle → e.rx.prev ≠ some false →
    exec (.quietIdleExpiry l) s = .next t)
  ∧ (e.state = .quiet → (e.idle < e.frameGap.toNat * e.bitTime ∨ e.rx.prev = some false) →
    (∃ a, e.attempt = some a ∧ a.replyWindow.toNat * e.bitTime ≤ e.elapsed) → exec (.quietLimitExpiry l) s = .next t)
  ∧ (e.state = .gap → exec (.frameGapEnd l) s = .next t)

/-- A step of an empty queue from `s` is a period from `u`, the state with what the moment before owes taken (log 8): it counts and samples, and
what falls due then acts in some order (log 18). -/
def Sys2Proof.Machine.Passes (s u : State) : Prop :=
  ∃ (order : List Actor) (n : Nat), u.choices ≤ n
    ∧ order.Perm ([.timer, .sync, .line .a, .line .b, .store].filter fun x => x.due u.later)
    ∧ step s = .next (order.foldl (fun v x => x.act v) { u.later with choices := n })

/-- A line that has begun to send since `s`, with a start edge of the same moment in its head (R13: at or after the beginning of the start bit;
log 9). An edge is of the moment when no sample and no period has come after it. -/
def Sys2Proof.Machine.State.edgeInHead (u s : State) (l : Line) : State :=
  let e := u.engine l
  match (s.engine l).rx.char with
  | some p =>
    if p.count = 0 ∧ (s.engine l).idle = 0 ∧ e.state = .transmit then
      u.setEngine l { e with rx := { e.rx with char := some { p with place := .sending 0 } } }
    else u
  | none => u

/-- A reference clock period (R1, R3, R14, R17, R41, R47): the part counts and samples (log 10, log 17), and then what falls due comes
about, the blocks in an open order (log 18): the tick at 16 × (prescaler + 1) periods, a falling edge of SYNC, a line's sample at divisor +
1 periods, the end of a line's span (the sample first, but the end of a sent character and of a frame gap before a sample that begins a
character: log 18), and the end of a check by 160 periods and of a copy by 1100, each as the row that names it does. A slot that the moment
before has brought to its offset begins before the counting, and a start edge of that moment lies in its head (R13; log 8, log 9, log 25).
That an empty queue is a period is log 2, and the speeds of the check and the copy are log 7 and log 6. -/
def Obligations.PeriodsCountAndSample : Prop :=
  (∀ s : State, s.inReset = false → s.pending = [] → s.Settled → Passes s s)
  ∧ (∀ (s u : State) (l : Line) (n : Notice) (r : ReadEntry), s.inReset = false → s.pending = [] → Reached s l n r →
    owes (otherLine l) s = false → exec (.slotBegin l) s = .next u → u.Settled → Passes s (u.edgeInHead s l))
  ∧ (∀ e : Engine, e.bitTime = 16 * (e.divisor.toNat + 1))
  ∧ ∀ s : State, s.inReset = false →
    (Actor.timer.due s = true ↔ s.timer.cycleRunning = true ∧ 16 * (s.timer.prescaler.toNat + 1) ≤ s.timer.subTick)
    ∧ (Actor.sync.due s = true ↔ s.timer.mode = .follow ∧ s.timer.prevSync = some true ∧ s.inputs.sync.level = false)
    ∧ (Actor.store.due s = true ↔ s.schedule.changeover = .checking ∨ s.schedule.copy.isSome = true)
    ∧ (∀ l, (s.engine l).divisor.toNat + 1 ≤ (s.engine l).sampleClock ∨ (s.engine l).SpanOver → (Actor.line l).due s = true)
    ∧ (∀ x : Actor, x.due s = false → x.act s = s)
    ∧ (Actor.timer.due s = true → s.Settled → exec .tick s = .next (Actor.timer.act s))
    ∧ (Actor.sync.due s = true → exec .syncFallingEdge s = .next (Actor.sync.act s))
    ∧ (let drawn := { s with choices := s.choices + 1 }
      (s.schedule.changeover = .checking →
        (160 ≤ s.schedule.age → exec .changeoverCheckEnd drawn = .next (Actor.store.act s))
        ∧ (exec .changeoverCheckEnd drawn = .next (Actor.store.act s)
          ∨ ∃ p, Actor.store.act s = { drawn with schedule := { s.schedule with checkPos := p } }))
      ∧ (s.schedule.changeover ≠ .checking → s.schedule.copy.isSome = true →
        (1100 ≤ s.schedule.age → exec .copyComplete drawn = .next (Actor.store.act s))
        ∧ (exec .copyComplete drawn = .next (Actor.store.act s) ∨ Actor.store.act s = drawn)))
    ∧ ∀ l, (s.engine l).SpansLegal →
      let e := s.engine l
      let pin := (s.inputs.rx.get l).after
      let sampled := fun v : State =>
        { v.setEngine l { v.engine l with sampleClock := 0 } with inputs := { v.inputs with rx := v.inputs.rx.set l pin } }
      (e.divisor.toNat + 1 ≤ e.sampleClock →
        (¬ ((e.state = .transmit ∨ e.state = .gap) ∧ e.rx.char = none ∧ e.SpanOver) → ∃ w, SampleActs (sampled s) l pin.level w
          ∧ ((w.engine l).SpanOver → SpanActs w l ((Actor.line l).act s))
          ∧ (¬ (w.engine l).SpanOver → (Actor.line l).act s = w))
        ∧ (e.state = .transmit → e.rx.char = none → e.SpanOver → e.disabling = false →
          ∃ w, exec (.characterTransmitted l) s = .next w ∧ SampleActs (sampled w) l pin.level ((Actor.line l).act s))
        ∧ (e.state = .gap → e.rx.char = none → e.SpanOver →
          ∃ w, exec (.frameGapEnd l) s = .next w ∧ SampleActs (sampled w) l pin.level ((Actor.line l).act s)))
      ∧ (e.sampleClock < e.divisor.toNat + 1 → e.SpanOver → SpanActs s l ((Actor.line l).act s))
end

