-- ==== Sys2Proof/Laws/State.lean ====
section
/-! SUPPORT. One lemma for each field of State under each update and each single-record operation, and the laws of pairs and of
vectors with one element replaced. -/

namespace Sys2Proof

/-! ## Pairs and vectors -/

@[simp] theorem Two.get_set_same (t : Two α) (l : Line) (x : α) : (t.set l x).get l = x := by cases l <;> rfl

theorem Two.get_set_other (t : Two α) {l m : Line} (x : α) (h : m ≠ l) : (t.set l x).get m = t.get m := by
  cases l <;> cases m <;> first | rfl | exact absurd rfl h

@[simp] theorem Two.set_get (t : Two α) (l : Line) : t.set l (t.get l) = t := by cases l <;> rfl

@[simp] theorem Two.set_set (t : Two α) (l : Line) (x y : α) : (t.set l x).set l y = t.set l y := by cases l <;> rfl

@[simp] theorem setAt_same (v : Vector α n) (i : Fin n) (x : α) : (setAt v i x)[i] = x := by simp [setAt]

theorem setAt_other (v : Vector α n) {i j : Fin n} (x : α) (h : j ≠ i) : (setAt v i x)[j] = v[j] := by
  have h' : i.val ≠ j.val := fun e => h (Fin.ext e.symm)
  simp [setAt, h']

namespace Machine

/-! ## Fields under the updates of a block -/

@[simp] theorem State.withTimer_timer (s : State) (x : Timer) : (s.withTimer x).timer = x := rfl
@[simp] theorem State.withTimer_schedule (s : State) (x : Timer) : (s.withTimer x).schedule = s.schedule := rfl
@[simp] theorem State.withTimer_lines (s : State) (x : Timer) : (s.withTimer x).lines = s.lines := rfl
@[simp] theorem State.withTimer_stations (s : State) (x : Timer) : (s.withTimer x).stations = s.stations := rfl
@[simp] theorem State.withTimer_pool (s : State) (x : Timer) : (s.withTimer x).pool = s.pool := rfl
@[simp] theorem State.withTimer_mailboxes (s : State) (x : Timer) : (s.withTimer x).mailboxes = s.mailboxes := rfl
@[simp] theorem State.withTimer_images (s : State) (x : Timer) : (s.withTimer x).images = s.images := rfl
@[simp] theorem State.withTimer_acyclic (s : State) (x : Timer) : (s.withTimer x).acyclic = s.acyclic := rfl
@[simp] theorem State.withTimer_events (s : State) (x : Timer) : (s.withTimer x).events = s.events := rfl
@[simp] theorem State.withTimer_host (s : State) (x : Timer) : (s.withTimer x).host = s.host := rfl
@[simp] theorem State.withTimer_inputs (s : State) (x : Timer) : (s.withTimer x).inputs = s.inputs := rfl
@[simp] theorem State.withTimer_inReset (s : State) (x : Timer) : (s.withTimer x).inReset = s.inReset := rfl
@[simp] theorem State.withTimer_choices (s : State) (x : Timer) : (s.withTimer x).choices = s.choices := rfl
@[simp] theorem State.withTimer_pending (s : State) (x : Timer) : (s.withTimer x).pending = s.pending := rfl

@[simp] theorem State.withSchedule_timer (s : State) (x : Schedule) : (s.withSchedule x).timer = s.timer := rfl
@[simp] theorem State.withSchedule_schedule (s : State) (x : Schedule) : (s.withSchedule x).schedule = x := rfl
@[simp] theorem State.withSchedule_lines (s : State) (x : Schedule) : (s.withSchedule x).lines = s.lines := rfl
@[simp] theorem State.withSchedule_stations (s : State) (x : Schedule) : (s.withSchedule x).stations = s.stations := rfl
@[simp] theorem State.withSchedule_pool (s : State) (x : Schedule) : (s.withSchedule x).pool = s.pool := rfl
@[simp] theorem State.withSchedule_mailboxes (s : State) (x : Schedule) : (s.withSchedule x).mailboxes = s.mailboxes := rfl
@[simp] theorem State.withSchedule_images (s : State) (x : Schedule) : (s.withSchedule x).images = s.images := rfl
@[simp] theorem State.withSchedule_acyclic (s : State) (x : Schedule) : (s.withSchedule x).acyclic = s.acyclic := rfl
@[simp] theorem State.withSchedule_events (s : State) (x : Schedule) : (s.withSchedule x).events = s.events := rfl
@[simp] theorem State.withSchedule_host (s : State) (x : Schedule) : (s.withSchedule x).host = s.host := rfl
@[simp] theorem State.withSchedule_inputs (s : State) (x : Schedule) : (s.withSchedule x).inputs = s.inputs := rfl
@[simp] theorem State.withSchedule_inReset (s : State) (x : Schedule) : (s.withSchedule x).inReset = s.inReset := rfl
@[simp] theorem State.withSchedule_choices (s : State) (x : Schedule) : (s.withSchedule x).choices = s.choices := rfl
@[simp] theorem State.withSchedule_pending (s : State) (x : Schedule) : (s.withSchedule x).pending = s.pending := rfl

@[simp] theorem State.withLines_timer (s : State) (x : Two Engine) : (s.withLines x).timer = s.timer := rfl
@[simp] theorem State.withLines_schedule (s : State) (x : Two Engine) : (s.withLines x).schedule = s.schedule := rfl
@[simp] theorem State.withLines_lines (s : State) (x : Two Engine) : (s.withLines x).lines = x := rfl
@[simp] theorem State.withLines_stations (s : State) (x : Two Engine) : (s.withLines x).stations = s.stations := rfl
@[simp] theorem State.withLines_pool (s : State) (x : Two Engine) : (s.withLines x).pool = s.pool := rfl
@[simp] theorem State.withLines_mailboxes (s : State) (x : Two Engine) : (s.withLines x).mailboxes = s.mailboxes := rfl
@[simp] theorem State.withLines_images (s : State) (x : Two Engine) : (s.withLines x).images = s.images := rfl
@[simp] theorem State.withLines_acyclic (s : State) (x : Two Engine) : (s.withLines x).acyclic = s.acyclic := rfl
@[simp] theorem State.withLines_events (s : State) (x : Two Engine) : (s.withLines x).events = s.events := rfl
@[simp] theorem State.withLines_host (s : State) (x : Two Engine) : (s.withLines x).host = s.host := rfl
@[simp] theorem State.withLines_inputs (s : State) (x : Two Engine) : (s.withLines x).inputs = s.inputs := rfl
@[simp] theorem State.withLines_inReset (s : State) (x : Two Engine) : (s.withLines x).inReset = s.inReset := rfl
@[simp] theorem State.withLines_choices (s : State) (x : Two Engine) : (s.withLines x).choices = s.choices := rfl
@[simp] theorem State.withLines_pending (s : State) (x : Two Engine) : (s.withLines x).pending = s.pending := rfl

@[simp] theorem State.withStations_timer (s : State) (x : Two (Vector Station 62)) : (s.withStations x).timer = s.timer := rfl
@[simp] theorem State.withStations_schedule (s : State) (x : Two (Vector Station 62)) : (s.withStations x).schedule = s.schedule := rfl
@[simp] theorem State.withStations_lines (s : State) (x : Two (Vector Station 62)) : (s.withStations x).lines = s.lines := rfl
@[simp] theorem State.withStations_stations (s : State) (x : Two (Vector Station 62)) : (s.withStations x).stations = x := rfl
@[simp] theorem State.withStations_pool (s : State) (x : Two (Vector Station 62)) : (s.withStations x).pool = s.pool := rfl
@[simp] theorem State.withStations_mailboxes (s : State) (x : Two (Vector Station 62)) : (s.withStations x).mailboxes = s.mailboxes := rfl
@[simp] theorem State.withStations_images (s : State) (x : Two (Vector Station 62)) : (s.withStations x).images = s.images := rfl
@[simp] theorem State.withStations_acyclic (s : State) (x : Two (Vector Station 62)) : (s.withStations x).acyclic = s.acyclic := rfl
@[simp] theorem State.withStations_events (s : State) (x : Two (Vector Station 62)) : (s.withStations x).events = s.events := rfl
@[simp] theorem State.withStations_host (s : State) (x : Two (Vector Station 62)) : (s.withStations x).host = s.host := rfl
@[simp] theorem State.withStations_inputs (s : State) (x : Two (Vector Station 62)) : (s.withStations x).inputs = s.inputs := rfl
@[simp] theorem State.withStations_inReset (s : State) (x : Two (Vector Station 62)) : (s.withStations x).inReset = s.inReset := rfl
@[simp] theorem State.withStations_choices (s : State) (x : Two (Vector Station 62)) : (s.withStations x).choices = s.choices := rfl
@[simp] theorem State.withStations_pending (s : State) (x : Two (Vector Station 62)) : (s.withStations x).pending = s.pending := rfl

@[simp] theorem State.withPool_timer (s : State) (x : Pool) : (s.withPool x).timer = s.timer := rfl
@[simp] theorem State.withPool_schedule (s : State) (x : Pool) : (s.withPool x).schedule = s.schedule := rfl
@[simp] theorem State.withPool_lines (s : State) (x : Pool) : (s.withPool x).lines = s.lines := rfl
@[simp] theorem State.withPool_stations (s : State) (x : Pool) : (s.withPool x).stations = s.stations := rfl
@[simp] theorem State.withPool_pool (s : State) (x : Pool) : (s.withPool x).pool = x := rfl
@[simp] theorem State.withPool_mailboxes (s : State) (x : Pool) : (s.withPool x).mailboxes = s.mailboxes := rfl
@[simp] theorem State.withPool_images (s : State) (x : Pool) : (s.withPool x).images = s.images := rfl
@[simp] theorem State.withPool_acyclic (s : State) (x : Pool) : (s.withPool x).acyclic = s.acyclic := rfl
@[simp] theorem State.withPool_events (s : State) (x : Pool) : (s.withPool x).events = s.events := rfl
@[simp] theorem State.withPool_host (s : State) (x : Pool) : (s.withPool x).host = s.host := rfl
@[simp] theorem State.withPool_inputs (s : State) (x : Pool) : (s.withPool x).inputs = s.inputs := rfl
@[simp] theorem State.withPool_inReset (s : State) (x : Pool) : (s.withPool x).inReset = s.inReset := rfl
@[simp] theorem State.withPool_choices (s : State) (x : Pool) : (s.withPool x).choices = s.choices := rfl
@[simp] theorem State.withPool_pending (s : State) (x : Pool) : (s.withPool x).pending = s.pending := rfl

@[simp] theorem State.withMailboxes_timer (s : State) (x : Vector Mailbox 48) : (s.withMailboxes x).timer = s.timer := rfl
@[simp] theorem State.withMailboxes_schedule (s : State) (x : Vector Mailbox 48) : (s.withMailboxes x).schedule = s.schedule := rfl
@[simp] theorem State.withMailboxes_lines (s : State) (x : Vector Mailbox 48) : (s.withMailboxes x).lines = s.lines := rfl
@[simp] theorem State.withMailboxes_stations (s : State) (x : Vector Mailbox 48) : (s.withMailboxes x).stations = s.stations := rfl
@[simp] theorem State.withMailboxes_pool (s : State) (x : Vector Mailbox 48) : (s.withMailboxes x).pool = s.pool := rfl
@[simp] theorem State.withMailboxes_mailboxes (s : State) (x : Vector Mailbox 48) : (s.withMailboxes x).mailboxes = x := rfl
@[simp] theorem State.withMailboxes_images (s : State) (x : Vector Mailbox 48) : (s.withMailboxes x).images = s.images := rfl
@[simp] theorem State.withMailboxes_acyclic (s : State) (x : Vector Mailbox 48) : (s.withMailboxes x).acyclic = s.acyclic := rfl
@[simp] theorem State.withMailboxes_events (s : State) (x : Vector Mailbox 48) : (s.withMailboxes x).events = s.events := rfl
@[simp] theorem State.withMailboxes_host (s : State) (x : Vector Mailbox 48) : (s.withMailboxes x).host = s.host := rfl
@[simp] theorem State.withMailboxes_inputs (s : State) (x : Vector Mailbox 48) : (s.withMailboxes x).inputs = s.inputs := rfl
@[simp] theorem State.withMailboxes_inReset (s : State) (x : Vector Mailbox 48) : (s.withMailboxes x).inReset = s.inReset := rfl
@[simp] theorem State.withMailboxes_choices (s : State) (x : Vector Mailbox 48) : (s.withMailboxes x).choices = s.choices := rfl
@[simp] theorem State.withMailboxes_pending (s : State) (x : Vector Mailbox 48) : (s.withMailboxes x).pending = s.pending := rfl

@[simp] theorem State.withImages_timer (s : State) (x : ImageStore) : (s.withImages x).timer = s.timer := rfl
@[simp] theorem State.withImages_schedule (s : State) (x : ImageStore) : (s.withImages x).schedule = s.schedule := rfl
@[simp] theorem State.withImages_lines (s : State) (x : ImageStore) : (s.withImages x).lines = s.lines := rfl
@[simp] theorem State.withImages_stations (s : State) (x : ImageStore) : (s.withImages x).stations = s.stations := rfl
@[simp] theorem State.withImages_pool (s : State) (x : ImageStore) : (s.withImages x).pool = s.pool := rfl
@[simp] theorem State.withImages_mailboxes (s : State) (x : ImageStore) : (s.withImages x).mailboxes = s.mailboxes := rfl
@[simp] theorem State.withImages_images (s : State) (x : ImageStore) : (s.withImages x).images = x := rfl
@[simp] theorem State.withImages_acyclic (s : State) (x : ImageStore) : (s.withImages x).acyclic = s.acyclic := rfl
@[simp] theorem State.withImages_events (s : State) (x : ImageStore) : (s.withImages x).events = s.events := rfl
@[simp] theorem State.withImages_host (s : State) (x : ImageStore) : (s.withImages x).host = s.host := rfl
@[simp] theorem State.withImages_inputs (s : State) (x : ImageStore) : (s.withImages x).inputs = s.inputs := rfl
@[simp] theorem State.withImages_inReset (s : State) (x : ImageStore) : (s.withImages x).inReset = s.inReset := rfl
@[simp] theorem State.withImages_choices (s : State) (x : ImageStore) : (s.withImages x).choices = s.choices := rfl
@[simp] theorem State.withImages_pending (s : State) (x : ImageStore) : (s.withImages x).pending = s.pending := rfl

@[simp] theorem State.withAcyclic_timer (s : State) (x : Two AcyclicStore) : (s.withAcyclic x).timer = s.timer := rfl
@[simp] theorem State.withAcyclic_schedule (s : State) (x : Two AcyclicStore) : (s.withAcyclic x).schedule = s.schedule := rfl
@[simp] theorem State.withAcyclic_lines (s : State) (x : Two AcyclicStore) : (s.withAcyclic x).lines = s.lines := rfl
@[simp] theorem State.withAcyclic_stations (s : State) (x : Two AcyclicStore) : (s.withAcyclic x).stations = s.stations := rfl
@[simp] theorem State.withAcyclic_pool (s : State) (x : Two AcyclicStore) : (s.withAcyclic x).pool = s.pool := rfl
@[simp] theorem State.withAcyclic_mailboxes (s : State) (x : Two AcyclicStore) : (s.withAcyclic x).mailboxes = s.mailboxes := rfl
@[simp] theorem State.withAcyclic_images (s : State) (x : Two AcyclicStore) : (s.withAcyclic x).images = s.images := rfl
@[simp] theorem State.withAcyclic_acyclic (s : State) (x : Two AcyclicStore) : (s.withAcyclic x).acyclic = x := rfl
@[simp] theorem State.withAcyclic_events (s : State) (x : Two AcyclicStore) : (s.withAcyclic x).events = s.events := rfl
@[simp] theorem State.withAcyclic_host (s : State) (x : Two AcyclicStore) : (s.withAcyclic x).host = s.host := rfl
@[simp] theorem State.withAcyclic_inputs (s : State) (x : Two AcyclicStore) : (s.withAcyclic x).inputs = s.inputs := rfl
@[simp] theorem State.withAcyclic_inReset (s : State) (x : Two AcyclicStore) : (s.withAcyclic x).inReset = s.inReset := rfl
@[simp] theorem State.withAcyclic_choices (s : State) (x : Two AcyclicStore) : (s.withAcyclic x).choices = s.choices := rfl
@[simp] theorem State.withAcyclic_pending (s : State) (x : Two AcyclicStore) : (s.withAcyclic x).pending = s.pending := rfl

@[simp] theorem State.withEvents_timer (s : State) (x : EventQueue) : (s.withEvents x).timer = s.timer := rfl
@[simp] theorem State.withEvents_schedule (s : State) (x : EventQueue) : (s.withEvents x).schedule = s.schedule := rfl
@[simp] theorem State.withEvents_lines (s : State) (x : EventQueue) : (s.withEvents x).lines = s.lines := rfl
@[simp] theorem State.withEvents_stations (s : State) (x : EventQueue) : (s.withEvents x).stations = s.stations := rfl
@[simp] theorem State.withEvents_pool (s : State) (x : EventQueue) : (s.withEvents x).pool = s.pool := rfl
@[simp] theorem State.withEvents_mailboxes (s : State) (x : EventQueue) : (s.withEvents x).mailboxes = s.mailboxes := rfl
@[simp] theorem State.withEvents_images (s : State) (x : EventQueue) : (s.withEvents x).images = s.images := rfl
@[simp] theorem State.withEvents_acyclic (s : State) (x : EventQueue) : (s.withEvents x).acyclic = s.acyclic := rfl
@[simp] theorem State.withEvents_events (s : State) (x : EventQueue) : (s.withEvents x).events = x := rfl
@[simp] theorem State.withEvents_host (s : State) (x : EventQueue) : (s.withEvents x).host = s.host := rfl
@[simp] theorem State.withEvents_inputs (s : State) (x : EventQueue) : (s.withEvents x).inputs = s.inputs := rfl
@[simp] theorem State.withEvents_inReset (s : State) (x : EventQueue) : (s.withEvents x).inReset = s.inReset := rfl
@[simp] theorem State.withEvents_choices (s : State) (x : EventQueue) : (s.withEvents x).choices = s.choices := rfl
@[simp] theorem State.withEvents_pending (s : State) (x : EventQueue) : (s.withEvents x).pending = s.pending := rfl

@[simp] theorem State.withHost_timer (s : State) (x : HostPort) : (s.withHost x).timer = s.timer := rfl
@[simp] theorem State.withHost_schedule (s : State) (x : HostPort) : (s.withHost x).schedule = s.schedule := rfl
@[simp] theorem State.withHost_lines (s : State) (x : HostPort) : (s.withHost x).lines = s.lines := rfl
@[simp] theorem State.withHost_stations (s : State) (x : HostPort) : (s.withHost x).stations = s.stations := rfl
@[simp] theorem State.withHost_pool (s : State) (x : HostPort) : (s.withHost x).pool = s.pool := rfl
@[simp] theorem State.withHost_mailboxes (s : State) (x : HostPort) : (s.withHost x).mailboxes = s.mailboxes := rfl
@[simp] theorem State.withHost_images (s : State) (x : HostPort) : (s.withHost x).images = s.images := rfl
@[simp] theorem State.withHost_acyclic (s : State) (x : HostPort) : (s.withHost x).acyclic = s.acyclic := rfl
@[simp] theorem State.withHost_events (s : State) (x : HostPort) : (s.withHost x).events = s.events := rfl
@[simp] theorem State.withHost_host (s : State) (x : HostPort) : (s.withHost x).host = x := rfl
@[simp] theorem State.withHost_inputs (s : State) (x : HostPort) : (s.withHost x).inputs = s.inputs := rfl
@[simp] theorem State.withHost_inReset (s : State) (x : HostPort) : (s.withHost x).inReset = s.inReset := rfl
@[simp] theorem State.withHost_choices (s : State) (x : HostPort) : (s.withHost x).choices = s.choices := rfl
@[simp] theorem State.withHost_pending (s : State) (x : HostPort) : (s.withHost x).pending = s.pending := rfl

@[simp] theorem State.withInputs_timer (s : State) (x : Inputs) : (s.withInputs x).timer = s.timer := rfl
@[simp] theorem State.withInputs_schedule (s : State) (x : Inputs) : (s.withInputs x).schedule = s.schedule := rfl
@[simp] theorem State.withInputs_lines (s : State) (x : Inputs) : (s.withInputs x).lines = s.lines := rfl
@[simp] theorem State.withInputs_stations (s : State) (x : Inputs) : (s.withInputs x).stations = s.stations := rfl
@[simp] theorem State.withInputs_pool (s : State) (x : Inputs) : (s.withInputs x).pool = s.pool := rfl
@[simp] theorem State.withInputs_mailboxes (s : State) (x : Inputs) : (s.withInputs x).mailboxes = s.mailboxes := rfl
@[simp] theorem State.withInputs_images (s : State) (x : Inputs) : (s.withInputs x).images = s.images := rfl
@[simp] theorem State.withInputs_acyclic (s : State) (x : Inputs) : (s.withInputs x).acyclic = s.acyclic := rfl
@[simp] theorem State.withInputs_events (s : State) (x : Inputs) : (s.withInputs x).events = s.events := rfl
@[simp] theorem State.withInputs_host (s : State) (x : Inputs) : (s.withInputs x).host = s.host := rfl
@[simp] theorem State.withInputs_inputs (s : State) (x : Inputs) : (s.withInputs x).inputs = x := rfl
@[simp] theorem State.withInputs_inReset (s : State) (x : Inputs) : (s.withInputs x).inReset = s.inReset := rfl
@[simp] theorem State.withInputs_choices (s : State) (x : Inputs) : (s.withInputs x).choices = s.choices := rfl
@[simp] theorem State.withInputs_pending (s : State) (x : Inputs) : (s.withInputs x).pending = s.pending := rfl

@[simp] theorem State.withChoices_timer (s : State) (x : Nat) : (s.withChoices x).timer = s.timer := rfl
@[simp] theorem State.withChoices_schedule (s : State) (x : Nat) : (s.withChoices x).schedule = s.schedule := rfl
@[simp] theorem State.withChoices_lines (s : State) (x : Nat) : (s.withChoices x).lines = s.lines := rfl
@[simp] theorem State.withChoices_stations (s : State) (x : Nat) : (s.withChoices x).stations = s.stations := rfl
@[simp] theorem State.withChoices_pool (s : State) (x : Nat) : (s.withChoices x).pool = s.pool := rfl
@[simp] theorem State.withChoices_mailboxes (s : State) (x : Nat) : (s.withChoices x).mailboxes = s.mailboxes := rfl
@[simp] theorem State.withChoices_images (s : State) (x : Nat) : (s.withChoices x).images = s.images := rfl
@[simp] theorem State.withChoices_acyclic (s : State) (x : Nat) : (s.withChoices x).acyclic = s.acyclic := rfl
@[simp] theorem State.withChoices_events (s : State) (x : Nat) : (s.withChoices x).events = s.events := rfl
@[simp] theorem State.withChoices_host (s : State) (x : Nat) : (s.withChoices x).host = s.host := rfl
@[simp] theorem State.withChoices_inputs (s : State) (x : Nat) : (s.withChoices x).inputs = s.inputs := rfl
@[simp] theorem State.withChoices_inReset (s : State) (x : Nat) : (s.withChoices x).inReset = s.inReset := rfl
@[simp] theorem State.withChoices_choices (s : State) (x : Nat) : (s.withChoices x).choices = x := rfl
@[simp] theorem State.withChoices_pending (s : State) (x : Nat) : (s.withChoices x).pending = s.pending := rfl

/-! ## Fields under the single-record operations -/

@[simp] theorem State.setEngine_timer (s : State) (l : Line) (e : Engine) : (s.setEngine l e).timer = s.timer := rfl
@[simp] theorem State.setEngine_schedule (s : State) (l : Line) (e : Engine) : (s.setEngine l e).schedule = s.schedule := rfl
@[simp] theorem State.setEngine_stations (s : State) (l : Line) (e : Engine) : (s.setEngine l e).stations = s.stations := rfl
@[simp] theorem State.setEngine_pool (s : State) (l : Line) (e : Engine) : (s.setEngine l e).pool = s.pool := rfl
@[simp] theorem State.setEngine_mailboxes (s : State) (l : Line) (e : Engine) : (s.setEngine l e).mailboxes = s.mailboxes := rfl
@[simp] theorem State.setEngine_images (s : State) (l : Line) (e : Engine) : (s.setEngine l e).images = s.images := rfl
@[simp] theorem State.setEngine_acyclic (s : State) (l : Line) (e : Engine) : (s.setEngine l e).acyclic = s.acyclic := rfl
@[simp] theorem State.setEngine_events (s : State) (l : Line) (e : Engine) : (s.setEngine l e).events = s.events := rfl
@[simp] theorem State.setEngine_host (s : State) (l : Line) (e : Engine) : (s.setEngine l e).host = s.host := rfl
@[simp] theorem State.setEngine_inputs (s : State) (l : Line) (e : Engine) : (s.setEngine l e).inputs = s.inputs := rfl
@[simp] theorem State.setEngine_inReset (s : State) (l : Line) (e : Engine) : (s.setEngine l e).inReset = s.inReset := rfl
@[simp] theorem State.setEngine_choices (s : State) (l : Line) (e : Engine) : (s.setEngine l e).choices = s.choices := rfl
@[simp] theorem State.setEngine_pending (s : State) (l : Line) (e : Engine) : (s.setEngine l e).pending = s.pending := rfl

@[simp] theorem State.setStation_timer (s : State) (l : Line) (i : Fin 62) (r : Station) : (s.setStation l i r).timer = s.timer := rfl
@[simp] theorem State.setStation_schedule (s : State) (l : Line) (i : Fin 62) (r : Station) : (s.setStation l i r).schedule = s.schedule := rfl
@[simp] theorem State.setStation_lines (s : State) (l : Line) (i : Fin 62) (r : Station) : (s.setStation l i r).lines = s.lines := rfl
@[simp] theorem State.setStation_pool (s : State) (l : Line) (i : Fin 62) (r : Station) : (s.setStation l i r).pool = s.pool := rfl
@[simp] theorem State.setStation_mailboxes (s : State) (l : Line) (i : Fin 62) (r : Station) : (s.setStation l i r).mailboxes = s.mailboxes := rfl
@[simp] theorem State.setStation_images (s : State) (l : Line) (i : Fin 62) (r : Station) : (s.setStation l i r).images = s.images := rfl
@[simp] theorem State.setStation_acyclic (s : State) (l : Line) (i : Fin 62) (r : Station) : (s.setStation l i r).acyclic = s.acyclic := rfl
@[simp] theorem State.setStation_events (s : State) (l : Line) (i : Fin 62) (r : Station) : (s.setStation l i r).events = s.events := rfl
@[simp] theorem State.setStation_host (s : State) (l : Line) (i : Fin 62) (r : Station) : (s.setStation l i r).host = s.host := rfl
@[simp] theorem State.setStation_inputs (s : State) (l : Line) (i : Fin 62) (r : Station) : (s.setStation l i r).inputs = s.inputs := rfl
@[simp] theorem State.setStation_inReset (s : State) (l : Line) (i : Fin 62) (r : Station) : (s.setStation l i r).inReset = s.inReset := rfl
@[simp] theorem State.setStation_choices (s : State) (l : Line) (i : Fin 62) (r : Station) : (s.setStation l i r).choices = s.choices := rfl
@[simp] theorem State.setStation_pending (s : State) (l : Line) (i : Fin 62) (r : Station) : (s.setStation l i r).pending = s.pending := rfl

@[simp] theorem State.setMailbox_timer (s : State) (m : Fin 48) (x : Mailbox) : (s.setMailbox m x).timer = s.timer := rfl
@[simp] theorem State.setMailbox_schedule (s : State) (m : Fin 48) (x : Mailbox) : (s.setMailbox m x).schedule = s.schedule := rfl
@[simp] theorem State.setMailbox_lines (s : State) (m : Fin 48) (x : Mailbox) : (s.setMailbox m x).lines = s.lines := rfl
@[simp] theorem State.setMailbox_stations (s : State) (m : Fin 48) (x : Mailbox) : (s.setMailbox m x).stations = s.stations := rfl
@[simp] theorem State.setMailbox_pool (s : State) (m : Fin 48) (x : Mailbox) : (s.setMailbox m x).pool = s.pool := rfl
@[simp] theorem State.setMailbox_images (s : State) (m : Fin 48) (x : Mailbox) : (s.setMailbox m x).images = s.images := rfl
@[simp] theorem State.setMailbox_acyclic (s : State) (m : Fin 48) (x : Mailbox) : (s.setMailbox m x).acyclic = s.acyclic := rfl
@[simp] theorem State.setMailbox_events (s : State) (m : Fin 48) (x : Mailbox) : (s.setMailbox m x).events = s.events := rfl
@[simp] theorem State.setMailbox_host (s : State) (m : Fin 48) (x : Mailbox) : (s.setMailbox m x).host = s.host := rfl
@[simp] theorem State.setMailbox_inputs (s : State) (m : Fin 48) (x : Mailbox) : (s.setMailbox m x).inputs = s.inputs := rfl
@[simp] theorem State.setMailbox_inReset (s : State) (m : Fin 48) (x : Mailbox) : (s.setMailbox m x).inReset = s.inReset := rfl
@[simp] theorem State.setMailbox_choices (s : State) (m : Fin 48) (x : Mailbox) : (s.setMailbox m x).choices = s.choices := rfl
@[simp] theorem State.setMailbox_pending (s : State) (m : Fin 48) (x : Mailbox) : (s.setMailbox m x).pending = s.pending := rfl

@[simp] theorem State.setBuffer_timer (s : State) (b : Fin 72) (x : Buffer) : (s.setBuffer b x).timer = s.timer := rfl
@[simp] theorem State.setBuffer_schedule (s : State) (b : Fin 72) (x : Buffer) : (s.setBuffer b x).schedule = s.schedule := rfl
@[simp] theorem State.setBuffer_lines (s : State) (b : Fin 72) (x : Buffer) : (s.setBuffer b x).lines = s.lines := rfl
@[simp] theorem State.setBuffer_stations (s : State) (b : Fin 72) (x : Buffer) : (s.setBuffer b x).stations = s.stations := rfl
@[simp] theorem State.setBuffer_mailboxes (s : State) (b : Fin 72) (x : Buffer) : (s.setBuffer b x).mailboxes = s.mailboxes := rfl
@[simp] theorem State.setBuffer_images (s : State) (b : Fin 72) (x : Buffer) : (s.setBuffer b x).images = s.images := rfl
@[simp] theorem State.setBuffer_acyclic (s : State) (b : Fin 72) (x : Buffer) : (s.setBuffer b x).acyclic = s.acyclic := rfl
@[simp] theorem State.setBuffer_events (s : State) (b : Fin 72) (x : Buffer) : (s.setBuffer b x).events = s.events := rfl
@[simp] theorem State.setBuffer_host (s : State) (b : Fin 72) (x : Buffer) : (s.setBuffer b x).host = s.host := rfl
@[simp] theorem State.setBuffer_inputs (s : State) (b : Fin 72) (x : Buffer) : (s.setBuffer b x).inputs = s.inputs := rfl
@[simp] theorem State.setBuffer_inReset (s : State) (b : Fin 72) (x : Buffer) : (s.setBuffer b x).inReset = s.inReset := rfl
@[simp] theorem State.setBuffer_choices (s : State) (b : Fin 72) (x : Buffer) : (s.setBuffer b x).choices = s.choices := rfl
@[simp] theorem State.setBuffer_pending (s : State) (b : Fin 72) (x : Buffer) : (s.setBuffer b x).pending = s.pending := rfl

@[simp] theorem State.setAcyclic_timer (s : State) (l : Line) (x : AcyclicStore) : (s.setAcyclic l x).timer = s.timer := rfl
@[simp] theorem State.setAcyclic_schedule (s : State) (l : Line) (x : AcyclicStore) : (s.setAcyclic l x).schedule = s.schedule := rfl
@[simp] theorem State.setAcyclic_lines (s : State) (l : Line) (x : AcyclicStore) : (s.setAcyclic l x).lines = s.lines := rfl
@[simp] theorem State.setAcyclic_stations (s : State) (l : Line) (x : AcyclicStore) : (s.setAcyclic l x).stations = s.stations := rfl
@[simp] theorem State.setAcyclic_pool (s : State) (l : Line) (x : AcyclicStore) : (s.setAcyclic l x).pool = s.pool := rfl
@[simp] theorem State.setAcyclic_mailboxes (s : State) (l : Line) (x : AcyclicStore) : (s.setAcyclic l x).mailboxes = s.mailboxes := rfl
@[simp] theorem State.setAcyclic_images (s : State) (l : Line) (x : AcyclicStore) : (s.setAcyclic l x).images = s.images := rfl
@[simp] theorem State.setAcyclic_events (s : State) (l : Line) (x : AcyclicStore) : (s.setAcyclic l x).events = s.events := rfl
@[simp] theorem State.setAcyclic_host (s : State) (l : Line) (x : AcyclicStore) : (s.setAcyclic l x).host = s.host := rfl
@[simp] theorem State.setAcyclic_inputs (s : State) (l : Line) (x : AcyclicStore) : (s.setAcyclic l x).inputs = s.inputs := rfl
@[simp] theorem State.setAcyclic_inReset (s : State) (l : Line) (x : AcyclicStore) : (s.setAcyclic l x).inReset = s.inReset := rfl
@[simp] theorem State.setAcyclic_choices (s : State) (l : Line) (x : AcyclicStore) : (s.setAcyclic l x).choices = s.choices := rfl
@[simp] theorem State.setAcyclic_pending (s : State) (l : Line) (x : AcyclicStore) : (s.setAcyclic l x).pending = s.pending := rfl

@[simp] theorem State.giveBuffer_timer (s : State) (b : Option (Fin 72)) : (s.giveBuffer b).timer = s.timer := rfl
@[simp] theorem State.giveBuffer_schedule (s : State) (b : Option (Fin 72)) : (s.giveBuffer b).schedule = s.schedule := rfl
@[simp] theorem State.giveBuffer_lines (s : State) (b : Option (Fin 72)) : (s.giveBuffer b).lines = s.lines := rfl
@[simp] theorem State.giveBuffer_stations (s : State) (b : Option (Fin 72)) : (s.giveBuffer b).stations = s.stations := rfl
@[simp] theorem State.giveBuffer_mailboxes (s : State) (b : Option (Fin 72)) : (s.giveBuffer b).mailboxes = s.mailboxes := rfl
@[simp] theorem State.giveBuffer_images (s : State) (b : Option (Fin 72)) : (s.giveBuffer b).images = s.images := rfl
@[simp] theorem State.giveBuffer_acyclic (s : State) (b : Option (Fin 72)) : (s.giveBuffer b).acyclic = s.acyclic := rfl
@[simp] theorem State.giveBuffer_events (s : State) (b : Option (Fin 72)) : (s.giveBuffer b).events = s.events := rfl
@[simp] theorem State.giveBuffer_host (s : State) (b : Option (Fin 72)) : (s.giveBuffer b).host = s.host := rfl
@[simp] theorem State.giveBuffer_inputs (s : State) (b : Option (Fin 72)) : (s.giveBuffer b).inputs = s.inputs := rfl
@[simp] theorem State.giveBuffer_inReset (s : State) (b : Option (Fin 72)) : (s.giveBuffer b).inReset = s.inReset := rfl
@[simp] theorem State.giveBuffer_choices (s : State) (b : Option (Fin 72)) : (s.giveBuffer b).choices = s.choices := rfl
@[simp] theorem State.giveBuffer_pending (s : State) (b : Option (Fin 72)) : (s.giveBuffer b).pending = s.pending := rfl

@[simp] theorem State.appendAll_timer (s : State) (as : List Append) : (s.appendAll as).timer = s.timer := rfl
@[simp] theorem State.appendAll_schedule (s : State) (as : List Append) : (s.appendAll as).schedule = s.schedule := rfl
@[simp] theorem State.appendAll_lines (s : State) (as : List Append) : (s.appendAll as).lines = s.lines := rfl
@[simp] theorem State.appendAll_stations (s : State) (as : List Append) : (s.appendAll as).stations = s.stations := rfl
@[simp] theorem State.appendAll_pool (s : State) (as : List Append) : (s.appendAll as).pool = s.pool := rfl
@[simp] theorem State.appendAll_mailboxes (s : State) (as : List Append) : (s.appendAll as).mailboxes = s.mailboxes := rfl
@[simp] theorem State.appendAll_images (s : State) (as : List Append) : (s.appendAll as).images = s.images := rfl
@[simp] theorem State.appendAll_acyclic (s : State) (as : List Append) : (s.appendAll as).acyclic = s.acyclic := rfl
@[simp] theorem State.appendAll_host (s : State) (as : List Append) : (s.appendAll as).host = s.host := rfl
@[simp] theorem State.appendAll_inputs (s : State) (as : List Append) : (s.appendAll as).inputs = s.inputs := rfl
@[simp] theorem State.appendAll_inReset (s : State) (as : List Append) : (s.appendAll as).inReset = s.inReset := rfl
@[simp] theorem State.appendAll_choices (s : State) (as : List Append) : (s.appendAll as).choices = s.choices := rfl
@[simp] theorem State.appendAll_pending (s : State) (as : List Append) : (s.appendAll as).pending = s.pending := rfl

@[simp] theorem State.appendEvent_timer (s : State) (e : Event) : (s.appendEvent e).timer = s.timer := rfl
@[simp] theorem State.appendEvent_schedule (s : State) (e : Event) : (s.appendEvent e).schedule = s.schedule := rfl
@[simp] theorem State.appendEvent_lines (s : State) (e : Event) : (s.appendEvent e).lines = s.lines := rfl
@[simp] theorem State.appendEvent_stations (s : State) (e : Event) : (s.appendEvent e).stations = s.stations := rfl
@[simp] theorem State.appendEvent_pool (s : State) (e : Event) : (s.appendEvent e).pool = s.pool := rfl
@[simp] theorem State.appendEvent_mailboxes (s : State) (e : Event) : (s.appendEvent e).mailboxes = s.mailboxes := rfl
@[simp] theorem State.appendEvent_images (s : State) (e : Event) : (s.appendEvent e).images = s.images := rfl
@[simp] theorem State.appendEvent_acyclic (s : State) (e : Event) : (s.appendEvent e).acyclic = s.acyclic := rfl
@[simp] theorem State.appendEvent_host (s : State) (e : Event) : (s.appendEvent e).host = s.host := rfl
@[simp] theorem State.appendEvent_inputs (s : State) (e : Event) : (s.appendEvent e).inputs = s.inputs := rfl
@[simp] theorem State.appendEvent_inReset (s : State) (e : Event) : (s.appendEvent e).inReset = s.inReset := rfl
@[simp] theorem State.appendEvent_choices (s : State) (e : Event) : (s.appendEvent e).choices = s.choices := rfl
@[simp] theorem State.appendEvent_pending (s : State) (e : Event) : (s.appendEvent e).pending = s.pending := rfl

@[simp] theorem State.flagWinError_timer (s : State) : (s.flagWinError).timer = s.timer := rfl
@[simp] theorem State.flagWinError_schedule (s : State) : (s.flagWinError).schedule = s.schedule := rfl
@[simp] theorem State.flagWinError_lines (s : State) : (s.flagWinError).lines = s.lines := rfl
@[simp] theorem State.flagWinError_stations (s : State) : (s.flagWinError).stations = s.stations := rfl
@[simp] theorem State.flagWinError_pool (s : State) : (s.flagWinError).pool = s.pool := rfl
@[simp] theorem State.flagWinError_mailboxes (s : State) : (s.flagWinError).mailboxes = s.mailboxes := rfl
@[simp] theorem State.flagWinError_images (s : State) : (s.flagWinError).images = s.images := rfl
@[simp] theorem State.flagWinError_acyclic (s : State) : (s.flagWinError).acyclic = s.acyclic := rfl
@[simp] theorem State.flagWinError_events (s : State) : (s.flagWinError).events = s.events := rfl
@[simp] theorem State.flagWinError_inputs (s : State) : (s.flagWinError).inputs = s.inputs := rfl
@[simp] theorem State.flagWinError_inReset (s : State) : (s.flagWinError).inReset = s.inReset := rfl
@[simp] theorem State.flagWinError_choices (s : State) : (s.flagWinError).choices = s.choices := rfl
@[simp] theorem State.flagWinError_pending (s : State) : (s.flagWinError).pending = s.pending := rfl

@[simp] theorem State.flagWinLocked_timer (s : State) : (s.flagWinLocked).timer = s.timer := rfl
@[simp] theorem State.flagWinLocked_schedule (s : State) : (s.flagWinLocked).schedule = s.schedule := rfl
@[simp] theorem State.flagWinLocked_lines (s : State) : (s.flagWinLocked).lines = s.lines := rfl
@[simp] theorem State.flagWinLocked_stations (s : State) : (s.flagWinLocked).stations = s.stations := rfl
@[simp] theorem State.flagWinLocked_pool (s : State) : (s.flagWinLocked).pool = s.pool := rfl
@[simp] theorem State.flagWinLocked_mailboxes (s : State) : (s.flagWinLocked).mailboxes = s.mailboxes := rfl
@[simp] theorem State.flagWinLocked_images (s : State) : (s.flagWinLocked).images = s.images := rfl
@[simp] theorem State.flagWinLocked_acyclic (s : State) : (s.flagWinLocked).acyclic = s.acyclic := rfl
@[simp] theorem State.flagWinLocked_events (s : State) : (s.flagWinLocked).events = s.events := rfl
@[simp] theorem State.flagWinLocked_inputs (s : State) : (s.flagWinLocked).inputs = s.inputs := rfl
@[simp] theorem State.flagWinLocked_inReset (s : State) : (s.flagWinLocked).inReset = s.inReset := rfl
@[simp] theorem State.flagWinLocked_choices (s : State) : (s.flagWinLocked).choices = s.choices := rfl
@[simp] theorem State.flagWinLocked_pending (s : State) : (s.flagWinLocked).pending = s.pending := rfl

@[simp] theorem State.flagSetLocked_timer (s : State) : (s.flagSetLocked).timer = s.timer := rfl
@[simp] theorem State.flagSetLocked_schedule (s : State) : (s.flagSetLocked).schedule = s.schedule := rfl
@[simp] theorem State.flagSetLocked_lines (s : State) : (s.flagSetLocked).lines = s.lines := rfl
@[simp] theorem State.flagSetLocked_stations (s : State) : (s.flagSetLocked).stations = s.stations := rfl
@[simp] theorem State.flagSetLocked_pool (s : State) : (s.flagSetLocked).pool = s.pool := rfl
@[simp] theorem State.flagSetLocked_mailboxes (s : State) : (s.flagSetLocked).mailboxes = s.mailboxes := rfl
@[simp] theorem State.flagSetLocked_images (s : State) : (s.flagSetLocked).images = s.images := rfl
@[simp] theorem State.flagSetLocked_acyclic (s : State) : (s.flagSetLocked).acyclic = s.acyclic := rfl
@[simp] theorem State.flagSetLocked_events (s : State) : (s.flagSetLocked).events = s.events := rfl
@[simp] theorem State.flagSetLocked_inputs (s : State) : (s.flagSetLocked).inputs = s.inputs := rfl
@[simp] theorem State.flagSetLocked_inReset (s : State) : (s.flagSetLocked).inReset = s.inReset := rfl
@[simp] theorem State.flagSetLocked_choices (s : State) : (s.flagSetLocked).choices = s.choices := rfl
@[simp] theorem State.flagSetLocked_pending (s : State) : (s.flagSetLocked).pending = s.pending := rfl

@[simp] theorem State.drawn_timer (s : State) : (s.drawn).timer = s.timer := rfl
@[simp] theorem State.drawn_schedule (s : State) : (s.drawn).schedule = s.schedule := rfl
@[simp] theorem State.drawn_lines (s : State) : (s.drawn).lines = s.lines := rfl
@[simp] theorem State.drawn_stations (s : State) : (s.drawn).stations = s.stations := rfl
@[simp] theorem State.drawn_pool (s : State) : (s.drawn).pool = s.pool := rfl
@[simp] theorem State.drawn_mailboxes (s : State) : (s.drawn).mailboxes = s.mailboxes := rfl
@[simp] theorem State.drawn_images (s : State) : (s.drawn).images = s.images := rfl
@[simp] theorem State.drawn_acyclic (s : State) : (s.drawn).acyclic = s.acyclic := rfl
@[simp] theorem State.drawn_events (s : State) : (s.drawn).events = s.events := rfl
@[simp] theorem State.drawn_host (s : State) : (s.drawn).host = s.host := rfl
@[simp] theorem State.drawn_inputs (s : State) : (s.drawn).inputs = s.inputs := rfl
@[simp] theorem State.drawn_inReset (s : State) : (s.drawn).inReset = s.inReset := rfl
@[simp] theorem State.drawn_pending (s : State) : (s.drawn).pending = s.pending := rfl

/-! ## Single records -/

@[simp] theorem State.setEngine_same (s : State) (l : Line) (e : Engine) : (s.setEngine l e).engine l = e := by
  simp [State.engine, State.setEngine]

theorem State.setEngine_other (s : State) {l m : Line} (e : Engine) (h : m ≠ l) :
    (s.setEngine l e).engine m = s.engine m := by
  simp [State.engine, State.setEngine, Two.get_set_other _ _ h]

@[simp] theorem State.setEngine_setEngine (s : State) (l : Line) (e f : Engine) :
    (s.setEngine l e).setEngine l f = s.setEngine l f := by
  simp [State.setEngine, State.withLines]

@[simp] theorem State.setEngine_engine (s : State) (l : Line) : s.setEngine l (s.engine l) = s := by
  simp [State.setEngine, State.engine, State.withLines]

@[simp] theorem State.setStation_same (s : State) (l : Line) (i : Fin 62) (r : Station) :
    (s.setStation l i r).station l i = r := by
  simp [State.station, State.setStation, setAt]

theorem State.setStation_otherLine (s : State) {l m : Line} (i j : Fin 62) (r : Station) (h : m ≠ l) :
    (s.setStation l i r).station m j = s.station m j := by
  simp [State.station, State.setStation, Two.get_set_other _ _ h]

theorem State.setStation_otherAddress (s : State) (l : Line) {i j : Fin 62} (r : Station) (h : j ≠ i) :
    (s.setStation l i r).station l j = s.station l j := by
  have h' : i.val ≠ j.val := fun e => h (Fin.ext e.symm)
  simp [State.station, State.setStation, setAt, h']

@[simp] theorem State.withTimer_engine (s : State) (x : Timer) (l : Line) : (s.withTimer x).engine l = s.engine l := rfl
@[simp] theorem State.withSchedule_engine (s : State) (x : Schedule) (l : Line) : (s.withSchedule x).engine l = s.engine l := rfl
@[simp] theorem State.withStations_engine (s : State) (x : Two (Vector Station 62)) (l : Line) : (s.withStations x).engine l = s.engine l := rfl
@[simp] theorem State.withPool_engine (s : State) (x : Pool) (l : Line) : (s.withPool x).engine l = s.engine l := rfl
@[simp] theorem State.withMailboxes_engine (s : State) (x : Vector Mailbox 48) (l : Line) : (s.withMailboxes x).engine l = s.engine l := rfl
@[simp] theorem State.withImages_engine (s : State) (x : ImageStore) (l : Line) : (s.withImages x).engine l = s.engine l := rfl
@[simp] theorem State.withAcyclic_engine (s : State) (x : Two AcyclicStore) (l : Line) : (s.withAcyclic x).engine l = s.engine l := rfl
@[simp] theorem State.withEvents_engine (s : State) (x : EventQueue) (l : Line) : (s.withEvents x).engine l = s.engine l := rfl
@[simp] theorem State.withHost_engine (s : State) (x : HostPort) (l : Line) : (s.withHost x).engine l = s.engine l := rfl
@[simp] theorem State.withInputs_engine (s : State) (x : Inputs) (l : Line) : (s.withInputs x).engine l = s.engine l := rfl
@[simp] theorem State.withChoices_engine (s : State) (x : Nat) (l : Line) : (s.withChoices x).engine l = s.engine l := rfl
@[simp] theorem State.withTimer_station (s : State) (x : Timer) (l : Line) (i : Fin 62) :
    (s.withTimer x).station l i = s.station l i := rfl
@[simp] theorem State.withSchedule_station (s : State) (x : Schedule) (l : Line) (i : Fin 62) :
    (s.withSchedule x).station l i = s.station l i := rfl
@[simp] theorem State.withLines_station (s : State) (x : Two Engine) (l : Line) (i : Fin 62) :
    (s.withLines x).station l i = s.station l i := rfl
@[simp] theorem State.withPool_station (s : State) (x : Pool) (l : Line) (i : Fin 62) :
    (s.withPool x).station l i = s.station l i := rfl
@[simp] theorem State.withMailboxes_station (s : State) (x : Vector Mailbox 48) (l : Line) (i : Fin 62) :
    (s.withMailboxes x).station l i = s.station l i := rfl
@[simp] theorem State.withImages_station (s : State) (x : ImageStore) (l : Line) (i : Fin 62) :
    (s.withImages x).station l i = s.station l i := rfl
@[simp] theorem State.withAcyclic_station (s : State) (x : Two AcyclicStore) (l : Line) (i : Fin 62) :
    (s.withAcyclic x).station l i = s.station l i := rfl
@[simp] theorem State.withEvents_station (s : State) (x : EventQueue) (l : Line) (i : Fin 62) :
    (s.withEvents x).station l i = s.station l i := rfl
@[simp] theorem State.withHost_station (s : State) (x : HostPort) (l : Line) (i : Fin 62) :
    (s.withHost x).station l i = s.station l i := rfl
@[simp] theorem State.withInputs_station (s : State) (x : Inputs) (l : Line) (i : Fin 62) :
    (s.withInputs x).station l i = s.station l i := rfl
@[simp] theorem State.withChoices_station (s : State) (x : Nat) (l : Line) (i : Fin 62) :
    (s.withChoices x).station l i = s.station l i := rfl
@[simp] theorem State.setEngine_station (s : State) (l : Line) (e : Engine) (k : Line) (j : Fin 62) :
    (s.setEngine l e).station k j = s.station k j := rfl
@[simp] theorem State.setStation_engine (s : State) (l : Line) (i : Fin 62) (r : Station) (k : Line) : (s.setStation l i r).engine k = s.engine k := rfl
@[simp] theorem State.setMailbox_engine (s : State) (m : Fin 48) (x : Mailbox) (k : Line) : (s.setMailbox m x).engine k = s.engine k := rfl
@[simp] theorem State.setMailbox_station (s : State) (m : Fin 48) (x : Mailbox) (k : Line) (j : Fin 62) :
    (s.setMailbox m x).station k j = s.station k j := rfl
@[simp] theorem State.setBuffer_engine (s : State) (b : Fin 72) (x : Buffer) (k : Line) : (s.setBuffer b x).engine k = s.engine k := rfl
@[simp] theorem State.setBuffer_station (s : State) (b : Fin 72) (x : Buffer) (k : Line) (j : Fin 62) :
    (s.setBuffer b x).station k j = s.station k j := rfl
@[simp] theorem State.setAcyclic_engine (s : State) (l : Line) (x : AcyclicStore) (k : Line) : (s.setAcyclic l x).engine k = s.engine k := rfl
@[simp] theorem State.setAcyclic_station (s : State) (l : Line) (x : AcyclicStore) (k : Line) (j : Fin 62) :
    (s.setAcyclic l x).station k j = s.station k j := rfl
@[simp] theorem State.giveBuffer_engine (s : State) (b : Option (Fin 72)) (k : Line) : (s.giveBuffer b).engine k = s.engine k := rfl
@[simp] theorem State.giveBuffer_station (s : State) (b : Option (Fin 72)) (k : Line) (j : Fin 62) :
    (s.giveBuffer b).station k j = s.station k j := rfl
@[simp] theorem State.appendAll_engine (s : State) (as : List Append) (k : Line) : (s.appendAll as).engine k = s.engine k := rfl
@[simp] theorem State.appendAll_station (s : State) (as : List Append) (k : Line) (j : Fin 62) :
    (s.appendAll as).station k j = s.station k j := rfl
@[simp] theorem State.appendEvent_engine (s : State) (e : Event) (k : Line) : (s.appendEvent e).engine k = s.engine k := rfl
@[simp] theorem State.appendEvent_station (s : State) (e : Event) (k : Line) (j : Fin 62) :
    (s.appendEvent e).station k j = s.station k j := rfl
@[simp] theorem State.flagWinError_engine (s : State) (k : Line) : (s.flagWinError).engine k = s.engine k := rfl
@[simp] theorem State.flagWinError_station (s : State) (k : Line) (j : Fin 62) :
    (s.flagWinError).station k j = s.station k j := rfl
@[simp] theorem State.flagWinLocked_engine (s : State) (k : Line) : (s.flagWinLocked).engine k = s.engine k := rfl
@[simp] theorem State.flagWinLocked_station (s : State) (k : Line) (j : Fin 62) :
    (s.flagWinLocked).station k j = s.station k j := rfl
@[simp] theorem State.flagSetLocked_engine (s : State) (k : Line) : (s.flagSetLocked).engine k = s.engine k := rfl
@[simp] theorem State.flagSetLocked_station (s : State) (k : Line) (j : Fin 62) :
    (s.flagSetLocked).station k j = s.station k j := rfl
@[simp] theorem State.drawn_engine (s : State) (k : Line) : (s.drawn).engine k = s.engine k := rfl
@[simp] theorem State.drawn_station (s : State) (k : Line) (j : Fin 62) :
    (s.drawn).station k j = s.station k j := rfl

/-! ## Accesses, events and commands -/

theorem State.access_run {s : State} (h : s.inReset = false) (f : State → State) :
    s.access f = f (s.withHost { s.host with data := none }) := by simp [State.access, h]

theorem State.access_held {s : State} (h : s.inReset = true) (f : State → State) : s.access f = s := by
  simp [State.access, h]

theorem State.event_run {s : State} (h : s.inReset = false) (f : State → State) : s.event f = f s := by
  simp [State.event, h]

theorem State.event_held {s : State} (h : s.inReset = true) (f : State → State) : s.event f = s := by
  simp [State.event, h]

/-- A command that is taken (R162). -/
theorem State.give_ok {s t : State} {command : State → Except CmdStatus State} (code : Byte) (h : command s = .ok t) :
    s.give code command = t.withHost { t.host with cmd := code, status := .accepted } := by simp [State.give, h]

/-- A command that is refused (R162). -/
theorem State.give_error {s : State} {r : CmdStatus} {command : State → Except CmdStatus State} (code : Byte)
    (h : command s = .error r) :
    s.give code command = s.withHost { s.host with cmd := code, status := r, cmdRefused := true } := by
  simp [State.give, h]

end Machine

end Sys2Proof
end

