-- ==== Sys2Proof/Laws/Access.lean ====
section
/-! SUPPORT. Commands and the window: what the giving of a command, a window read and a window write can do. -/

namespace Sys2Proof.Machine

/-! ## Commands -/

/-- A command that is taken: its effect, with CMD and CMD_STATUS on top (R162). -/
theorem commandAccess_ok {code : Byte} {command : State → Except CmdStatus State} {s t : State} (hr : s.inReset = false)
    (h : command (s.withHost { s.host with data := none }) = .ok t) :
    commandAccess code command s = t.withHost { t.host with cmd := code, status := .accepted } := by
  simp [commandAccess, State.access_run hr, State.give, h]

/-- A command that is refused: nothing but the Host Port's answer (R162). -/
theorem commandAccess_error {code : Byte} {command : State → Except CmdStatus State} {s : State} {r : CmdStatus}
    (hr : s.inReset = false) (h : command (s.withHost { s.host with data := none }) = .error r) :
    commandAccess code command s = s.refused code r := by
  unfold commandAccess
  rw [State.access_run hr, State.give, h]
  rfl

theorem commandAccess_held {code : Byte} {command : State → Except CmdStatus State} {s : State} (hr : s.inReset = true) :
    commandAccess code command s = s := by
  simp [commandAccess, State.access, hr]

/-! ## Codes and offsets -/

/-- The codes of the table each name the command of their own row (section 11.10). -/
theorem commandOfCode_badCommand (code other : Byte) : commandOfCode code ≠ some (.badCommand other) := by
  unfold commandOfCode; split <;> simp

/-- No offset spells a REGISTER_WRITE of its own. -/
theorem ownRowOfWrite_registerWrite (offset : BitVec 6) (v : Byte) (o : BitVec 6) (w : Byte) :
    ownRowOfWrite offset v ≠ some (.registerWrite o w) := by
  unfold ownRowOfWrite lineBlockWrite commandOfCode
  repeat' split
  all_goals simp [lineSettingAt]

/-! ## The window -/

/-- A record read at its first byte latches the record whole (R159). -/
theorem readRecord_first (id : RecordId) (bytes : List Byte) (s : State) :
    readRecord id bytes 0 s = (bytes.getD 0 0, s.withHost { s.host with latch := some { id := id, bytes := bytes } }) := rfl

/-- A later byte leaves the state as it is (R160). -/
theorem readRecord_later {id : RecordId} {bytes : List Byte} {k : Nat} (h : k ≠ 0) (s : State) :
    (readRecord id bytes k s).2 = s := by
  unfold readRecord
  simp only [h, if_false]
  split
  · split <;> rfl
  · rfl

/-- A later byte comes from the latch while that holds the record, else from the record (R160). -/
theorem readRecord_byte {id : RecordId} {bytes : List Byte} {k : Nat} (h : k ≠ 0) (s : State) :
    (readRecord id bytes k s).1 =
      if s.host.latch.any (fun c => decide (c.id = id)) = true then ((s.host.latch.map (·.bytes)).getD []).getD k 0
      else bytes.getD k 0 := by
  unfold readRecord
  simp only [h, if_false]
  cases s.host.latch with
  | none => rfl
  | some c => by_cases hc : c.id = id <;> simp [hc]

/-- A window read changes at most the latch, WIN_ERROR, the progress of a running copy and the open choices drawn. -/
theorem windowRead_only (t : WinTarget) (s : State) :
    ∃ latch winError schedule choices, s.choices ≤ choices
      ∧ (windowRead t s).2 = { s with
          host := { s.host with latch := latch, winError := winError }, schedule := schedule, choices := choices }
      ∧ (s.schedule.copy = none → schedule = s.schedule ∧ choices = s.choices) := by
  have none' : ∃ latch winError schedule choices, s.choices ≤ choices
      ∧ s = { s with host := { s.host with latch := latch, winError := winError }, schedule := schedule, choices := choices }
      ∧ (s.schedule.copy = none → schedule = s.schedule ∧ choices = s.choices) :=
    ⟨_, _, _, _, le_rfl, rfl, fun _ => ⟨rfl, rfl⟩⟩
  have record : ∀ id bytes k, ∃ latch winError schedule choices, s.choices ≤ choices
      ∧ (readRecord id bytes k s).2 = { s with
          host := { s.host with latch := latch, winError := winError }, schedule := schedule, choices := choices }
      ∧ (s.schedule.copy = none → schedule = s.schedule ∧ choices = s.choices) := by
    intro id bytes k
    by_cases hk : k = 0
    · subst hk; exact ⟨_, _, _, _, le_rfl, rfl, fun _ => ⟨rfl, rfl⟩⟩
    · rw [readRecord_later hk]; exact none'
  have copying : ∃ latch winError schedule choices, s.choices ≤ choices
      ∧ copyProgress s = { s with
          host := { s.host with latch := latch, winError := winError }, schedule := schedule, choices := choices }
      ∧ (s.schedule.copy = none → schedule = s.schedule ∧ choices = s.choices) := by
    unfold copyProgress
    split
    · rename_i h
      exact ⟨s.host.latch, s.host.winError, _, s.choices + 1, by omega, rfl, fun k => by simp [k] at h⟩
    · exact none'
  have claimed : ∀ m byte, ∃ latch winError schedule choices, s.choices ≤ choices
      ∧ (readClaimed m byte s).2 = { s with
          host := { s.host with latch := latch, winError := winError }, schedule := schedule, choices := choices }
      ∧ (s.schedule.copy = none → schedule = s.schedule ∧ choices = s.choices) := by
    intro m byte
    unfold readClaimed
    split
    · exact none'
    · exact none'
    · exact none'
    · exact none'
    · exact ⟨_, _, _, _, le_rfl, rfl, fun _ => ⟨rfl, rfl⟩⟩
    · exact ⟨_, _, _, _, le_rfl, rfl, fun _ => ⟨rfl, rfl⟩⟩
  unfold windowRead
  split
  · exact copying
  · exact none'
  · exact copying
  · exact none'
  · exact record ..
  · exact record ..
  · exact none'
  · exact none'
  · exact none'
  · exact none'
  · exact record ..
  · exact claimed ..
  · exact claimed ..
  · exact record ..
  · exact none'
  · exact none'
  · exact none'
  · exact none'
  · exact ⟨_, _, _, _, le_rfl, rfl, fun _ => ⟨rfl, rfl⟩⟩

end Sys2Proof.Machine
end

