-- ==== Sys2Proof/Laws/Lines.lean ====
section
/-! SUPPORT. What a line's engine can touch: its own engine, its own stations, its own acyclic store, its own results, and the shared
pool, mailboxes, events and open choices; nothing else. One lemma for each shared operation of a line. -/

namespace Sys2Proof.Machine

/-- Everything an operation of line `l` leaves as it was. -/
structure LineFrame (l : Line) (s t : State) : Prop where
  timer : t.timer = s.timer
  images : t.images = s.images
  host : t.host = s.host
  inputs : t.inputs = s.inputs
  inReset : t.inReset = s.inReset
  pending : t.pending = s.pending
  choices : s.choices ≤ t.choices
  schedule : t.schedule = { s.schedule with results := t.schedule.results }
  results : ∀ m, m ≠ l → t.schedule.results.get m = s.schedule.results.get m
  engine : ∀ m, m ≠ l → t.engine m = s.engine m
  station : ∀ m, m ≠ l → t.stations.get m = s.stations.get m
  acyclic : ∀ m, m ≠ l → t.acyclic.get m = s.acyclic.get m

theorem LineFrame.refl (l : Line) (s : State) : LineFrame l s s := by
  constructor <;> intros <;> rfl

theorem LineFrame.trans {l : Line} {s t u : State} (h : LineFrame l s t) (k : LineFrame l t u) : LineFrame l s u where
  timer := k.timer.trans h.timer
  images := k.images.trans h.images
  host := k.host.trans h.host
  inputs := k.inputs.trans h.inputs
  inReset := k.inReset.trans h.inReset
  pending := k.pending.trans h.pending
  choices := h.choices.trans k.choices
  schedule := by rw [k.schedule, h.schedule]
  results := fun m hm => (k.results m hm).trans (h.results m hm)
  engine := fun m hm => (k.engine m hm).trans (h.engine m hm)
  station := fun m hm => (k.station m hm).trans (h.station m hm)
  acyclic := fun m hm => (k.acyclic m hm).trans (h.acyclic m hm)

/-! ## Updates -/

theorem setEngine_lineFrame (l : Line) (s : State) (e : Engine) : LineFrame l s (s.setEngine l e) where
  timer := rfl
  images := rfl
  host := rfl
  inputs := rfl
  inReset := rfl
  pending := rfl
  choices := le_rfl
  schedule := rfl
  results := fun _ _ => rfl
  engine := fun _ h => State.setEngine_other s e h
  station := fun _ _ => rfl
  acyclic := fun _ _ => rfl

theorem setStation_lineFrame (l : Line) (s : State) (i : Fin 62) (r : Station) : LineFrame l s (s.setStation l i r) where
  timer := rfl
  images := rfl
  host := rfl
  inputs := rfl
  inReset := rfl
  pending := rfl
  choices := le_rfl
  schedule := rfl
  results := fun _ _ => rfl
  engine := fun _ _ => rfl
  station := fun _ h => Two.get_set_other _ _ h
  acyclic := fun _ _ => rfl

theorem setAcyclic_lineFrame (l : Line) (s : State) (x : AcyclicStore) : LineFrame l s (s.setAcyclic l x) where
  timer := rfl
  images := rfl
  host := rfl
  inputs := rfl
  inReset := rfl
  pending := rfl
  choices := le_rfl
  schedule := rfl
  results := fun _ _ => rfl
  engine := fun _ _ => rfl
  station := fun _ _ => rfl
  acyclic := fun _ h => Two.get_set_other _ _ h

/-- Updates of the blocks both lines share. -/
theorem shared_lineFrame (l : Line) (s : State) (p : Pool) (m : Vector Mailbox 48) (e : EventQueue) {c : Nat} (h : s.choices ≤ c) :
    LineFrame l s { s with pool := p, mailboxes := m, events := e, choices := c } := by
  constructor <;> intros <;> first | rfl | exact h

theorem withPool_lineFrame (l : Line) (s : State) (p : Pool) : LineFrame l s (s.withPool p) :=
  shared_lineFrame l s p _ _ le_rfl

theorem withEvents_lineFrame (l : Line) (s : State) (e : EventQueue) : LineFrame l s (s.withEvents e) :=
  shared_lineFrame l s _ _ e le_rfl

theorem setMailbox_lineFrame (l : Line) (s : State) (i : Fin 48) (m : Mailbox) : LineFrame l s (s.setMailbox i m) :=
  shared_lineFrame l s _ _ _ le_rfl

theorem setBuffer_lineFrame (l : Line) (s : State) (i : Fin 72) (b : Buffer) : LineFrame l s (s.setBuffer i b) :=
  shared_lineFrame l s _ _ _ le_rfl

theorem giveBuffer_lineFrame (l : Line) (s : State) (b : Option (Fin 72)) : LineFrame l s (s.giveBuffer b) :=
  shared_lineFrame l s _ _ _ le_rfl

theorem appendAll_lineFrame (l : Line) (s : State) (as : List Append) : LineFrame l s (s.appendAll as) :=
  shared_lineFrame l s _ _ _ le_rfl

theorem appendEvent_lineFrame (l : Line) (s : State) (e : Event) : LineFrame l s (s.appendEvent e) :=
  shared_lineFrame l s _ _ _ le_rfl

theorem drawn_lineFrame (l : Line) (s : State) : LineFrame l s s.drawn :=
  shared_lineFrame l s _ _ _ (Nat.le_succ _)

/-- A result write of a line's own slot, discarded or not (R50). -/
theorem writeResult_lineFrame (l : Line) (s : State) (i : Fin 32) (c : Half) (r : SlotResult) :
    LineFrame l s (s.withSchedule (s.schedule.writeResult l i c r)) := by
  constructor <;> intros <;> try rfl
  · unfold Schedule.writeResult; split <;> rfl
  · unfold Schedule.writeResult
    split
    · exact Two.get_set_other _ _ (by assumption)
    · rfl

/-- The squeezed results of a line's own walk (R58). -/
theorem squeezeFrom_lineFrame (l : Line) (s : State) (n : Notice) (k : Nat) :
    LineFrame l s (s.withSchedule (s.schedule.squeezeFrom l n k)) := by
  constructor <;> intros <;> try rfl
  · unfold Schedule.squeezeFrom; split <;> rfl
  · unfold Schedule.squeezeFrom
    split
    · exact Two.get_set_other _ _ (by assumption)
    · rfl

/-! ## Attempts -/

theorem takeBuffer_lineFrame (l : Line) (w : TakeFor) (s : State) : LineFrame l s (takeBuffer l w s) := by
  unfold takeBuffer
  split
  · exact (withPool_lineFrame l s _).trans (setEngine_lineFrame l _ _)
  · dsimp only
    split
    · exact withPool_lineFrame l s _
    · exact (withPool_lineFrame l s _).trans (appendEvent_lineFrame l _ _)

theorem beginAttempt_lineFrame (l : Line) (s : State) : LineFrame l s (beginAttempt l s) := by
  unfold beginAttempt
  split
  · exact .refl l s
  · exact setEngine_lineFrame l s _

theorem leaveSlot_lineFrame (l : Line) (o : Outcome) (s : State) : LineFrame l s (leaveSlot l o s) := by
  unfold leaveSlot
  split
  · exact .refl l s
  · exact (writeResult_lineFrame l s _ _ _).trans (setEngine_lineFrame l _ _)

theorem dropHeld_lineFrame (l : Line) (s : State) : LineFrame l s (dropHeld l s) := setEngine_lineFrame l s _

theorem returnHeld_lineFrame (l : Line) (s : State) : LineFrame l s (returnHeld l s) :=
  (giveBuffer_lineFrame l s _).trans (dropHeld_lineFrame l _)

theorem writeHeader_lineFrame (l : Line) (b : Fin 72) (a : Attempt) (v : Byte) (s : State) :
    LineFrame l s (writeHeader l b a v s) := by
  unfold writeHeader
  split
  · exact setBuffer_lineFrame l s _ _
  · exact .refl l s

theorem publishInto_lineFrame (l : Line) (i : Fin 48) (b : Fin 72) (s : State) : LineFrame l s (publishInto i b s) :=
  (setMailbox_lineFrame l s _ _).trans (giveBuffer_lineFrame l _ _)

theorem publishHeld_lineFrame (l : Line) (c : Slot) (a : Attempt) (s : State) : LineFrame l s (publishHeld l c a s) := by
  unfold publishHeld
  split
  · exact ((writeHeader_lineFrame l _ _ _ s).trans (publishInto_lineFrame l _ _ _)).trans (dropHeld_lineFrame l _)
  · exact returnHeld_lineFrame l s

theorem applyReport_lineFrame (l : Line) (x : Byte) (p : Report) (s : State) : LineFrame l s (applyReport l x p s).1 := by
  unfold applyReport
  split
  · exact .refl l s
  · exact setStation_lineFrame l s _ _

theorem reportSlot_lineFrame (l : Line) (x : Byte) (p : Report) (s : State) : LineFrame l s (reportSlot l x p s) :=
  (applyReport_lineFrame l x p s).trans (appendAll_lineFrame l _ _)

theorem reportAttempt_lineFrame (l : Line) (x : Byte) (o : Outcome) (s : State) : LineFrame l s (reportAttempt l x o s) := by
  unfold reportAttempt
  split
  · exact .refl l s
  · exact setStation_lineFrame l s _ _

theorem finishSlot_lineFrame (l : Line) (o : Outcome) (a : Option Attempt) (s : State) :
    LineFrame l s (finishSlot l o a s) := by
  unfold finishSlot
  split
  · exact .refl l s
  · dsimp only
    refine LineFrame.trans ?_ (leaveSlot_lineFrame l o _)
    split
    · split
      · exact publishHeld_lineFrame l _ _ s
      · exact returnHeld_lineFrame l s
    · refine LineFrame.trans ?_ (reportSlot_lineFrame l _ _ _)
      split
      · exact publishHeld_lineFrame l _ _ s
      · exact returnHeld_lineFrame l s

theorem leaveRequest_lineFrame (l : Line) (s : State) : LineFrame l s (leaveRequest l s) := setEngine_lineFrame l s _

theorem anyPlace_lineFrame (l : Line) (s : State) (x : α) (ys : List α) : LineFrame l s (anyPlace s x ys).2 := by
  unfold anyPlace
  split
  · exact .refl l s
  · exact drawn_lineFrame l s

theorem completeRequest_lineFrame (l : Line) (o : Outcome) (a : Option Attempt) (s : State) :
    LineFrame l s (completeRequest l o a s) := by
  unfold completeRequest
  split
  · exact .refl l s
  · dsimp only
    refine LineFrame.trans ?_ (leaveRequest_lineFrame l _)
    refine LineFrame.trans ?_ (appendAll_lineFrame l _ _)
    refine LineFrame.trans ?_ (anyPlace_lineFrame l _ _ _)
    split
    · split
      · exact writeHeader_lineFrame l _ _ _ s
      · exact giveBuffer_lineFrame l s _
    · refine LineFrame.trans ?_ (applyReport_lineFrame l _ _ _)
      split
      · exact writeHeader_lineFrame l _ _ _ s
      · exact giveBuffer_lineFrame l s _

theorem endAttempt_lineFrame (l : Line) (o : Outcome) (s : State) : LineFrame l s (endAttempt l o s) := by
  unfold endAttempt
  split
  · exact .refl l s
  · rename_i a _
    have h2 : LineFrame l s (if a.kind = kindBroadcast then s else reportAttempt l a.station o s) := by
      split
      · exact .refl l s
      · exact reportAttempt_lineFrame l _ _ s
    dsimp only
    split
    · split
      · exact (h2.trans (setEngine_lineFrame l _ _)).trans (completeRequest_lineFrame l _ _ _)
      · exact (h2.trans (setEngine_lineFrame l _ _)).trans (finishSlot_lineFrame l _ _ _)
    · exact h2.trans (setEngine_lineFrame l _ _)

/-! ## The walk -/

theorem readNext_lineFrame (l : Line) (s : State) : LineFrame l s (readNext l s) := by
  unfold readNext
  dsimp only
  split
  · split
    · exact setEngine_lineFrame l s _
    · exact .refl l s
  · exact .refl l s

theorem takeSnapshot_lineFrame (l : Line) (c : Slot) (s : State) : LineFrame l s (takeSnapshot l c s) := by
  unfold takeSnapshot
  split
  · exact setEngine_lineFrame l s _
  · exact .refl l s

theorem takeForSlot_lineFrame (l : Line) (c : Slot) (s : State) : LineFrame l s (takeForSlot l c s) := by
  unfold takeForSlot
  split
  · exact takeBuffer_lineFrame l _ s
  · exact .refl l s

theorem sendSlot_lineFrame (l : Line) (c : Slot) (s : State) : LineFrame l s (sendSlot l c s) :=
  ((takeSnapshot_lineFrame l c s).trans (takeForSlot_lineFrame l c _)).trans (beginAttempt_lineFrame l _)

theorem startStation_lineFrame (l : Line) (c : Slot) (s : State) : LineFrame l s (startStation l c s) := by
  unfold startStation
  split
  · exact sendSlot_lineFrame l c s
  · dsimp only
    split
    · exact (setStation_lineFrame l s _ _).trans (leaveSlot_lineFrame l _ _)
    · exact (setStation_lineFrame l s _ _).trans (sendSlot_lineFrame l _ _)
    · exact ((setStation_lineFrame l s _ _).trans (setEngine_lineFrame l _ _)).trans (sendSlot_lineFrame l _ _)

theorem beginSlot_lineFrame (l : Line) (n : Notice) (r : ReadEntry) (s : State) : LineFrame l s (beginSlot l n r s) := by
  have h := setEngine_lineFrame l s ((s.engine l).enterSlot (newSlot s n r))
  unfold beginSlot
  dsimp only
  split
  · exact h.trans (leaveSlot_lineFrame l _ _)
  · split
    · exact h
    · split
      · exact h.trans (sendSlot_lineFrame l _ _)
      · exact h.trans (startStation_lineFrame l _ _)

theorem walkOn_lineFrame (l : Line) (n : Nat) (s : State) : LineFrame l s (walkOn l n s) := by
  induction n generalizing s with
  | zero => exact .refl l s
  | succ n ih =>
    unfold walkOn
    dsimp only
    split
    · split
      · exact ((readNext_lineFrame l s).trans (beginSlot_lineFrame l _ _ _)).trans (ih _)
      · exact readNext_lineFrame l s
    · exact readNext_lineFrame l s

theorem slotBegin_lineFrame (l : Line) (s : State) : LineFrame l s (slotBegin l s) := by
  unfold slotBegin
  dsimp only
  split
  · exact walkOn_lineFrame l _ s
  · exact .refl l s

theorem openSlotEnd_lineFrame (l : Line) (s : State) : LineFrame l s (openSlotEnd l s) := by
  unfold openSlotEnd
  split
  · exact (leaveSlot_lineFrame l _ s).trans (readNext_lineFrame l _)
  · exact .refl l s

theorem afterGap_lineFrame (l : Line) (s : State) : LineFrame l s (afterGap l s) := by
  unfold afterGap
  split
  · split
    · exact (leaveSlot_lineFrame l _ s).trans (slotBegin_lineFrame l _)
    · exact setEngine_lineFrame l s _
  · exact slotBegin_lineFrame l s

theorem retryDecision_lineFrame (l : Line) (o : Outcome) (s : State) : LineFrame l s (retryDecision l o s) := by
  unfold retryDecision
  split
  · exact beginAttempt_lineFrame l s
  · split
    · exact (completeRequest_lineFrame l _ _ s).trans (afterGap_lineFrame l _)
    · exact (finishSlot_lineFrame l _ _ s).trans (slotBegin_lineFrame l _)

theorem frameGapEnd_lineFrame (l : Line) (s : State) : LineFrame l s (frameGapEnd l s) := by
  unfold frameGapEnd
  dsimp only
  split
  · split
    · exact (setEngine_lineFrame l s _).trans (retryDecision_lineFrame l _ _)
    · exact (setEngine_lineFrame l s _).trans (afterGap_lineFrame l _)
  · exact .refl l s

theorem takeForRequest_lineFrame (l : Line) (q : Request) (s : State) : LineFrame l s (takeForRequest l q s) := by
  unfold takeForRequest
  split
  · exact .refl l s
  · exact takeBuffer_lineFrame l _ s

theorem startHead_lineFrame (l : Line) (d : Descriptor) (c : Slot) (s : State) : LineFrame l s (startHead l d c s) :=
  ((withEvents_lineFrame l s _).trans (setAcyclic_lineFrame l _ _)).trans (setEngine_lineFrame l _ _)

theorem startAcyclic_lineFrame (l : Line) (s : State) : LineFrame l s (startAcyclic l s) := by
  unfold startAcyclic
  split
  · exact .refl l s
  · dsimp only
    split
    · exact ((startHead_lineFrame l _ _ s).trans (takeForRequest_lineFrame l _ _)).trans (beginAttempt_lineFrame l _)
    · exact (startHead_lineFrame l _ _ s).trans (completeRequest_lineFrame l _ _ _)

theorem takeNotice_lineFrame (l : Line) (n : Option Notice) (s : State) : LineFrame l s (takeNotice l n s) := by
  have hq : LineFrame l s (squeezeUnbegun l s) := by
    unfold squeezeUnbegun
    split
    · exact squeezeFrom_lineFrame l s _ _
    · exact .refl l s
  unfold takeNotice
  split
  · exact .refl l s
  · dsimp only
    refine LineFrame.trans ?_ (readNext_lineFrame l _)
    split
    · exact (hq.trans (setEngine_lineFrame l _ _)).trans (leaveSlot_lineFrame l _ _)
    · exact hq.trans (setEngine_lineFrame l _ _)

theorem tearDown_lineFrame (l : Line) (s : State) : LineFrame l s (tearDown l s) :=
  ((completeRequest_lineFrame l _ _ s).trans (returnHeld_lineFrame l _)).trans (leaveSlot_lineFrame l _ _)

/-! ## Traffic -/

theorem characterSent_lineFrame (l : Line) (s : State) : LineFrame l s (characterSent l s) := by
  unfold characterSent
  dsimp only
  split
  · exact .refl l s
  · split
    · exact setEngine_lineFrame l s _
    · split
      · exact .refl l s
      · split
        · exact endAttempt_lineFrame l _ s
        · split
          · exact setEngine_lineFrame l s _
          · unfold frameSent
            split
            · exact endAttempt_lineFrame l _ s
            · exact setEngine_lineFrame l s _

theorem startEdge_lineFrame (l : Line) (s : State) : LineFrame l s (startEdge l s) := by
  unfold startEdge
  dsimp only
  split
  · exact .refl l s
  · exact setEngine_lineFrame l s _

theorem storePayload_lineFrame (l : Line) (x : Option (Nat × Byte)) (s : State) : LineFrame l s (storePayload l x s) := by
  unfold storePayload
  split
  · exact setBuffer_lineFrame l s _ _
  · exact .refl l s

theorem applyJudgement_lineFrame (l : Line) (a : Attempt) (j : Judgement) (s : State) :
    LineFrame l s (applyJudgement l a j s) := by
  unfold applyJudgement
  split
  · exact (setEngine_lineFrame l s _).trans (storePayload_lineFrame l _ _)
  · exact setEngine_lineFrame l s _
  · exact (setEngine_lineFrame l s _).trans (endAttempt_lineFrame l _ _)

theorem handleCharacter_lineFrame (l : Line) (p : RxProgress) (c : RxChar) (s : State) :
    LineFrame l s (handleCharacter l p c s) := by
  unfold handleCharacter
  split
  · exact setEngine_lineFrame l s _
  · exact setEngine_lineFrame l s _
  · unfold echoCharacter
    split
    · exact setEngine_lineFrame l s _
    · exact .refl l s
  · unfold awaitCharacter
    split
    · unfold headFound
      dsimp only
      split
      · exact (setEngine_lineFrame l s _).trans (applyJudgement_lineFrame l _ _ _)
      · exact setEngine_lineFrame l s _
    · split
      · exact (setEngine_lineFrame l s _).trans (endAttempt_lineFrame l _ _)
      · exact setEngine_lineFrame l s _
  · unfold replyCharacter
    split
    · exact applyJudgement_lineFrame l _ _ s
    · exact .refl l s
  · exact .refl l s

theorem completeCharacter_lineFrame (l : Line) (c : RxChar) (s : State) : LineFrame l s (completeCharacter l c s) := by
  unfold completeCharacter
  split
  · exact .refl l s
  · exact (setEngine_lineFrame l s _).trans (handleCharacter_lineFrame l _ _ _)

theorem falseStart_lineFrame (l : Line) (s : State) : LineFrame l s (falseStart l s) := by
  unfold falseStart
  dsimp only
  split
  · exact .refl l s
  · split
    · split
      · exact (setEngine_lineFrame l s _).trans (endAttempt_lineFrame l _ _)
      · exact setEngine_lineFrame l s _
    · exact setEngine_lineFrame l s _

theorem windowExpiry_lineFrame (l : Line) (s : State) : LineFrame l s (windowExpiry l s) := by
  unfold windowExpiry
  dsimp only
  split
  · split
    · exact setEngine_lineFrame l s _
    · exact endAttempt_lineFrame l _ s
  · exact .refl l s

theorem charGapExpiry_lineFrame (l : Line) (s : State) : LineFrame l s (charGapExpiry l s) := by
  unfold charGapExpiry
  dsimp only
  split
  · split
    · exact .refl l s
    · exact setEngine_lineFrame l s _
  · exact .refl l s

theorem endQuiet_lineFrame (l : Line) (s : State) : LineFrame l s (endQuiet l s) := by
  unfold endQuiet
  dsimp only
  split
  · exact endAttempt_lineFrame l _ s
  · exact .refl l s

end Sys2Proof.Machine
end

