-- ==== Sys2Proof/Laws/Events.lean ====
section
/-! SUPPORT. The Event Queue: what appends, reservations and a removal can do to it, and what the open orders can do to a list of
appends. -/

namespace Sys2Proof.Machine

/-! ## One append -/

theorem EventQueue.append_room {q : EventQueue} (h : q.load < 32) (e : Event) :
    q.append e = { q with entries := q.entries ++ [e] } := by
  simp [EventQueue.append, EventQueue.hasRoom, Config.queueRoom, h]

theorem EventQueue.append_noRoom {q : EventQueue} (h : 32 ≤ q.load) (e : Event) :
    q.append e = { q with drops := satInc q.drops } := by
  have : ¬ q.load < 32 := by omega
  simp [EventQueue.append, EventQueue.hasRoom, Config.queueRoom, this]

@[simp] theorem EventQueue.append_reserved (q : EventQueue) (e : Event) : (q.append e).reserved = q.reserved := by
  unfold EventQueue.append; split <;> rfl

theorem EventQueue.append_prefix (q : EventQueue) (e : Event) : q.entries <+: (q.append e).entries := by
  unfold EventQueue.append; split <;> simp

/-- An append keeps the bound of 32 (R144). -/
theorem EventQueue.load_append_le {q : EventQueue} (h : q.load ≤ 32) (e : Event) : (q.append e).load ≤ 32 := by
  by_cases hr : q.load < 32
  · rw [q.append_room hr]; simp [EventQueue.load, EventQueue.reservations] at *; omega
  · rw [q.append_noRoom (by omega)]; simpa [EventQueue.load, EventQueue.reservations] using h

/-- A reserved append lands without a change of the load (R145). -/
theorem EventQueue.load_appendReserved {q : EventQueue} {l : Line} (h : q.reserved.get l = true) (e : Event) :
    (q.appendReserved l e).load = q.load := by
  cases l <;> simp [EventQueue.load, EventQueue.reservations, EventQueue.appendReserved, Two.get, Two.set] at *
    <;> simp [h] <;> omega

/-- A reservation of a line that holds none adds one to the load (R144). -/
theorem EventQueue.load_reserve {q : EventQueue} {l : Line} (h : q.reserved.get l = false) :
    (q.reserve l).load = q.load + 1 := by
  cases l <;> simp [EventQueue.load, EventQueue.reservations, EventQueue.reserve, Two.get, Two.set] at *
    <;> simp [h] <;> omega

/-- The removal of the head never adds to the load (R148). -/
theorem EventQueue.load_afterPop {q : EventQueue} {e : Event} {rest : List Event} (h : q.entries = e :: rest) (cycle : Half) :
    (q.afterPop rest cycle).load ≤ q.load := by
  unfold EventQueue.afterPop
  simp only
  split <;> simp [EventQueue.load, EventQueue.reservations, h]

@[simp] theorem EventQueue.afterPop_reserved (q : EventQueue) (rest : List Event) (cycle : Half) :
    (q.afterPop rest cycle).reserved = q.reserved := by
  unfold EventQueue.afterPop; simp only; split <;> rfl

/-! ## Appends in turn -/

/-- Unreserved appends in turn are the queue's appends in turn. -/
theorem foldl_apply_plain (es : List Event) (q : EventQueue) :
    (es.map Append.plain).foldl EventQueue.apply q = es.foldl EventQueue.append q := by
  induction es generalizing q with
  | nil => rfl
  | cons e r ih => simp [ih, EventQueue.apply]

/-- With room for all of them, unreserved appends all land, in their order. -/
theorem foldl_append_room (es : List Event) (q : EventQueue) (h : q.load + es.length ≤ 32) :
    es.foldl EventQueue.append q = { q with entries := q.entries ++ es } := by
  induction es generalizing q with
  | nil => simp
  | cons e r ih =>
    simp only [List.length_cons] at h
    rw [List.foldl_cons, q.append_room (by omega) e, ih]
    · simp
    · simp [EventQueue.load, EventQueue.reservations] at *; omega

/-- Unreserved appends only add entries at the tail, each one of theirs, and keep every reservation. -/
theorem foldl_append_adds (es : List Event) (q : EventQueue) :
    q.entries <+: (es.foldl EventQueue.append q).entries ∧ (es.foldl EventQueue.append q).reserved = q.reserved
    ∧ ∀ e ∈ (es.foldl EventQueue.append q).entries.drop q.entries.length, e ∈ es := by
  induction es generalizing q with
  | nil => simp
  | cons e r ih =>
    obtain ⟨h1, h2, h3⟩ := ih (q.append e)
    rw [List.foldl_cons]
    refine ⟨(q.append_prefix e).trans h1, by simp [h2], ?_⟩
    by_cases hr : q.load < 32
    · rw [q.append_room hr] at h1 h3 ⊢
      obtain ⟨tl, htl⟩ := h1
      simp only at htl h3
      rw [← htl] at h3 ⊢
      intro x hx
      simp at hx h3
      rcases hx with hx | hx
      · simp [hx]
      · simp [h3 x hx]
    · rw [q.append_noRoom (by omega)] at h3 ⊢
      intro x hx; exact List.mem_cons_of_mem _ (h3 x hx)

theorem foldl_append_load_le (es : List Event) (q : EventQueue) (h : q.load ≤ 32) :
    (es.foldl EventQueue.append q).load ≤ 32 := by
  induction es generalizing q with
  | nil => simpa
  | cons e r ih => exact ih _ (q.load_append_le h e)

/-! ## Open orders (R143) -/

/-- Two lists put together in either order hold what the two lists hold. -/
theorem eitherOrder_spec (s : State) (xs ys : List α) :
    (∀ a, a ∈ (eitherOrder s xs ys).1 ↔ a ∈ xs ∨ a ∈ ys) ∧ ∃ c, s.choices ≤ c ∧ (eitherOrder s xs ys).2 = s.withChoices c := by
  unfold eitherOrder
  split
  · rename_i h; simp at h; subst h; exact ⟨by simp, s.choices, le_rfl, rfl⟩
  · split
    · rename_i h; simp at h; subst h; exact ⟨by simp, s.choices, le_rfl, rfl⟩
    · refine ⟨?_, s.choices + 1, by omega, rfl⟩
      intro a; split <;> simp [or_comm]

/-- One element put at any place of a list: the list is cut in two there. -/
theorem anyPlace_spec (s : State) (x : α) (ys : List α) :
    ∃ front back c, ys = front ++ back ∧ s.choices ≤ c ∧ anyPlace s x ys = (front ++ x :: back, s.withChoices c) := by
  unfold anyPlace
  split
  · rename_i h; simp at h; subst h; exact ⟨[], [], s.choices, rfl, le_rfl, rfl⟩
  · exact ⟨_, _, s.choices + 1, (List.take_append_drop _ ys).symm, by omega, rfl⟩

/-- A reserved append at any place among at most two unreserved ones (R136): it lands, the line's reservation ceases, nothing that was in the
queue moves, and with room for two more all of them land and nothing is dropped. -/
theorem reservedAmong_spec (l : Line) (d : Event) (s : State) (es : List Event) (q : EventQueue) (hes : es.length ≤ 2) :
    ∃ c appends, s.choices ≤ c
      ∧ anyPlace s (Append.reserved l d) (es.map Append.plain) = (appends, s.withChoices c)
      ∧ q.entries <+: (appends.foldl EventQueue.apply q).entries
      ∧ (appends.foldl EventQueue.apply q).reserved = q.reserved.set l false
      ∧ d ∈ (appends.foldl EventQueue.apply q).entries.drop q.entries.length
      ∧ (q.load + 2 ≤ 32 → q.reserved.get l = true →
          (appends.foldl EventQueue.apply q).drops = q.drops
          ∧ ∀ e ∈ es, e ∈ (appends.foldl EventQueue.apply q).entries.drop q.entries.length) := by
  obtain ⟨front, back, c, hcut, hc, hplace⟩ := anyPlace_spec s (Append.reserved l d) (es.map Append.plain)
  obtain ⟨xs, ys, hxy, hf, hb⟩ := List.map_eq_append_iff.mp hcut
  subst hf; subst hb
  refine ⟨c, _, hc, hplace, ?_⟩
  rw [List.foldl_append, List.foldl_cons, foldl_apply_plain, foldl_apply_plain]
  simp only [EventQueue.apply]
  obtain ⟨a1, a2, -⟩ := foldl_append_adds xs q
  obtain ⟨b1, b2, -⟩ := foldl_append_adds ys ((xs.foldl EventQueue.append q).appendReserved l d)
  simp only [EventQueue.appendReserved] at b1 b2 ⊢
  refine ⟨(a1.trans (List.prefix_append _ _)).trans b1, by rw [b2, a2], ?_, ?_⟩
  · obtain ⟨t1, h1⟩ := a1
    obtain ⟨t2, h2⟩ := b1
    rw [← h2, ← h1]; simp
  · intro hl hr
    have hlen : xs.length + ys.length ≤ 2 := by rw [hxy] at hes; simpa using hes
    rw [foldl_append_room xs q (by omega), foldl_append_room ys]
    · refine ⟨rfl, ?_⟩
      intro e he; rw [hxy] at he; simp at he ⊢; tauto
    · have hz : q.load = q.entries.length + q.reservations := rfl
      cases l <;> simp [EventQueue.load, EventQueue.reservations, Two.set, Two.get] at * <;> simp [hr] at hl <;> omega

end Sys2Proof.Machine
end

