-- ==== Sys2Proof/Laws/Pool.lean ====
section
/-! SUPPORT. The Buffer Pool and the Mailboxes: returns, takes and publications as one update each. -/

namespace Sys2Proof.Machine

/-- A return puts the buffer, if there is one, at the tail of the free list and ends an empty episode (R105). -/
theorem State.giveBuffer_eq (s : State) (b : Option (Fin 72)) :
    s.giveBuffer b = s.withPool { s.pool with free := s.pool.free ++ b.toList, episode := s.pool.episode && b.isNone } := by
  cases b <;> simp [State.giveBuffer, Pool.giveAll, Pool.give, State.withPool]

/-- Two returns in turn (R114). -/
theorem Pool.giveAll_pair (p : Pool) (a b : Option (Fin 72)) :
    p.giveAll [a, b] =
      { p with free := p.free ++ (a.toList ++ b.toList), episode := p.episode && a.isNone && b.isNone } := by
  cases a <;> cases b <;> simp [Pool.giveAll, Pool.give]

/-- A take of a free buffer: the head of the list (R103). -/
theorem takeBuffer_free (l : Line) (w : TakeFor) {s : State} {b : Fin 72} {rest : List (Fin 72)} (h : s.pool.free = b :: rest) :
    takeBuffer l w s = (s.withPool { s.pool with free := rest }).setEngine l { s.engine l with held := some b } := by
  simp [takeBuffer, h]

/-- A miss (R104). -/
theorem takeBuffer_miss (l : Line) (w : TakeFor) {s : State} (h : s.pool.free = []) :
    takeBuffer l w s =
      (s.withPool { s.pool with misses := satInc s.pool.misses, episode := true }).withEvents
        (if s.pool.episode then s.events
          else s.events.append { kind := .poolEmpty, line := some l, station := w.station, cycle := w.cycle,
                                 entryIndex := w.index, tag := w.tag }) := by
  unfold takeBuffer
  rw [h]
  simp only
  split <;> rfl

/-- A publication is one update of the mailbox and one return of what it displaces (R109, R110). -/
theorem publishInto_eq (i : Fin 48) (b : Fin 72) (s : State) :
    publishInto i b s = (s.setMailbox i (s.mailboxes[i].publish b).1).withPool { s.pool with
      free := s.pool.free ++ (s.mailboxes[i].publish b).2.toList
      episode := s.pool.episode && (s.mailboxes[i].publish b).2.isNone } := by
  simp [publishInto, State.giveBuffer_eq]

/-- Every publication counts (R110). -/
theorem Mailbox.publish_publishes (m : Mailbox) (b : Fin 72) : (m.publish b).1.publishes = m.publishes + 1 := by
  unfold Mailbox.publish; split <;> rfl

/-- A publication keeps what it does not displace: the mailbox's places and the displaced buffer together are its old places and the
published buffer (R100). -/
theorem Mailbox.publish_places (m : Mailbox) (b : Fin 72) (h : m.state = .empty → m.current = none)
    (k : m.state = .claimed → m.next = none) :
    ((m.publish b).1.current.toList ++ (m.publish b).1.next.toList ++ (m.publish b).2.toList).Perm
      (m.current.toList ++ m.next.toList ++ [b]) := by
  unfold Mailbox.publish
  cases hs : m.state <;> simp only
  · simp [h hs]
    cases m.next <;> simp [List.Perm.swap]
  · cases hc : m.current <;> cases hn : m.next <;> simp
    · exact List.Perm.swap ..
    · exact List.Perm.swap ..
    · rename_i x y
      exact (List.Perm.swap y b [x]).trans ((List.Perm.cons y (List.Perm.swap x b [])).trans (List.Perm.swap x y [b]))
  · simp [k hs]
  · cases hc : m.current <;> cases hn : m.next <;> simp
    · exact List.Perm.swap ..
    · exact List.Perm.swap ..

/-- The head buffer that POP returns, and the bound it keeps (R148). -/
theorem popEvent_cons {s : State} {e : Event} {rest : List Event} (h : s.events.entries = e :: rest) :
    popEvent s = .ok ((s.withEvents (s.events.afterPop rest s.timer.cycleCount)).giveBuffer e.buffer) := by
  simp [popEvent, h]

end Sys2Proof.Machine
end

