-- ==== Sys2Proof/Laws/Slots.lean ====
section
/-! SUPPORT. Attempts and slots: what the shared operations of chapter 4 answer, each said once. -/

namespace Sys2Proof.Machine

/-! ## Records put back as they are -/

theorem State.setEngine_self {s : State} {l : Line} {e : Engine} (h : e = s.engine l) : s.setEngine l e = s := by
  subst h; exact State.setEngine_engine s l

theorem State.setStation_self (s : State) (l : Line) (i : Fin 62) : s.setStation l i (s.station l i) = s := by
  cases l <;> simp [State.setStation, State.withStations, State.station, Two.set, Two.get, setAt]

theorem State.setEngine_setStation_self (s : State) (l k : Line) (e : Engine) (i : Fin 62) :
    (s.setEngine l e).setStation k i (s.station k i) = s.setEngine l e := by
  have := State.setStation_self (s.setEngine l e) k i
  simpa using this

/-! ## Time remaining (R60) -/

/-- A reservation fits the time remaining exactly while the notice is held and it ends by the budget end. -/
theorem le_timeRemaining (s : State) (c : Slot) {r : Nat} (h : 1 ≤ r) :
    r ≤ timeRemaining s c ↔ c.noticeHeld = true ∧ s.timer.value.toNat + r ≤ c.budgetEnd.toNat := by
  unfold timeRemaining; cases c.noticeHeld <;> simp <;> omega

/-! ## Result writes and entry reads (R38, R50) -/

@[simp] theorem Schedule.entryRead_writeResult (sch : Schedule) (l : Line) (i : Fin 32) (n : Half) (r : SlotResult) (P : Half)
    (k : Line) (m : Notice) (j : Nat) : (sch.writeResult l i n r).entryRead P k m j = sch.entryRead P k m j := by
  unfold Schedule.writeResult; split <;> rfl

/-- A result write changes results only. -/
theorem Schedule.writeResult_only (sch : Schedule) (l : Line) (i : Fin 32) (n : Half) (r : SlotResult) :
    sch.writeResult l i n r = { sch with results := (sch.writeResult l i n r).results } := by
  unfold Schedule.writeResult; split <;> rfl

/-- The result writes of a notice change results only. -/
theorem Schedule.squeezeFrom_only (sch : Schedule) (l : Line) (n : Notice) (k : Nat) :
    sch.squeezeFrom l n k = { sch with results := (sch.squeezeFrom l n k).results } := by
  unfold Schedule.squeezeFrom; split <;> rfl

/-! ## The walk (R61) -/

theorem readNext_noNotice {s : State} {l : Line} (h : (s.engine l).notice = none) : readNext l s = s := by
  simp [readNext, h]

theorem readNext_kept {s : State} {l : Line} (h : (s.engine l).next ≠ none) : readNext l s = s := by
  cases hn : (s.engine l).notice <;> simp [readNext, hn, h]

theorem readNext_inSlot {s : State} {l : Line} (h : (s.engine l).slot ≠ none) : readNext l s = s := by
  cases hn : (s.engine l).notice <;> simp [readNext, hn, h]

/-- An entry read changes the kept entry only. -/
theorem readNext_only (l : Line) (s : State) :
    ∃ x, readNext l s = s.setEngine l { s.engine l with next := x } ∧ ((s.engine l).notice = none → x = (s.engine l).next) := by
  have same : s = s.setEngine l { s.engine l with next := (s.engine l).next } := (State.setEngine_self rfl).symm
  cases hn : (s.engine l).notice with
  | none => exact ⟨_, (readNext_noNotice hn).trans same, fun _ => rfl⟩
  | some n =>
    by_cases hw : (s.engine l).state = .wait ∧ (s.engine l).slot = none ∧ (s.engine l).next = none
    · exact ⟨s.schedule.entryRead s.timer.period l n (s.engine l).walk, by simp [readNext, hn, hw], nofun⟩
    · exact ⟨(s.engine l).next, (by simp [readNext, hn, hw] : readNext l s = s).trans same, nofun⟩

/-- An entry read of an engine that keeps no entry (R61): the answer is kept if the engine waits with no slot. -/
theorem readNext_answer {l : Line} {s : State} (h : (s.engine l).next = none) :
    readNext l s = s.setEngine l { s.engine l with
      next := if (s.engine l).state = .wait ∧ (s.engine l).slot = none then
          (s.engine l).notice.bind fun m => s.schedule.entryRead s.timer.period l m (s.engine l).walk
        else none } := by
  have same : s.setEngine l { s.engine l with next := none } = s := State.setEngine_self (by rw [← h])
  cases hn : (s.engine l).notice with
  | none => rw [readNext_noNotice hn, Option.bind_none, ite_self]; exact same.symm
  | some m =>
    by_cases hw : (s.engine l).state = .wait ∧ (s.engine l).slot = none
    · simp [readNext, hn, hw, h]
    · rw [if_neg hw]
      refine Eq.trans ?_ same.symm
      have : ¬ ((s.engine l).state = .wait ∧ (s.engine l).slot = none ∧ (s.engine l).next = none) := fun x => hw ⟨x.1, x.2.1⟩
      simp only [readNext, hn, this, if_false]

/-- A list that is finished for the cycle leaves the engine as it is. -/
theorem readNext_finished {s : State} {l : Line} (hk : (s.engine l).next = none)
    (h : ∀ n, (s.engine l).notice = some n → s.schedule.entryRead s.timer.period l n (s.engine l).walk = none) :
    readNext l s = s := by
  cases hn : (s.engine l).notice with
  | none => exact readNext_noNotice hn
  | some n =>
    simp only [readNext, hn]
    split
    · rw [h n hn]; exact State.setEngine_self (by rw [← hn, ← hk])
    · rfl

theorem walkOn_finished {s : State} {l : Line} (k : Nat) (hk : (s.engine l).next = none)
    (h : ∀ n, (s.engine l).notice = some n → s.schedule.entryRead s.timer.period l n (s.engine l).walk = none) :
    walkOn l k s = s := by
  cases k with
  | zero => rfl
  | succ k =>
    unfold walkOn
    simp only [readNext_finished hk h, hk]
    cases (s.engine l).notice <;> rfl

/-- Within a slot the walk stands. -/
theorem walkOn_inSlot {s : State} {l : Line} (k : Nat) (hk : (s.engine l).next = none) (h : (s.engine l).slot ≠ none) :
    walkOn l k s = s := by
  cases k with
  | zero => rfl
  | succ k =>
    unfold walkOn
    simp only [readNext_inSlot h, hk]
    cases (s.engine l).notice <;> rfl

/-- A kept entry that has been reached begins its slot, and the walk goes on from there. -/
theorem walkOn_reached {s : State} {l : Line} (k : Nat) {n : Notice} {r : ReadEntry} (hn : (s.engine l).notice = some n)
    (hk : (s.engine l).next = some r) (h : r.entry.offset.toNat ≤ s.timer.value.toNat) :
    walkOn l (k + 1) s = walkOn l k (beginSlot l n r s) := by
  conv_lhs => unfold walkOn
  simp only [readNext_kept (s := s) (l := l) (by simp [hk]), hn, hk, h, if_true]

/-- A kept entry that has not been reached waits. -/
theorem walkOn_notReached {s : State} {l : Line} (k : Nat) {r : ReadEntry} (hk : (s.engine l).next = some r)
    (h : s.timer.value.toNat < r.entry.offset.toNat) : walkOn l k s = s := by
  have h' : ¬ r.entry.offset.toNat ≤ s.timer.value.toNat := by omega
  cases k with
  | zero => rfl
  | succ k =>
    unfold walkOn
    simp only [readNext_kept (s := s) (l := l) (by simp [hk]), hk]
    cases (s.engine l).notice
    · rfl
    · simp only [h', if_false]

/-! ## Rounds of a walk -/

/-- The kept entry and the walk position of a line are as they were. -/
def SameWalk (l : Line) (s t : State) : Prop :=
  (t.engine l).walk = (s.engine l).walk ∧ (t.engine l).next = (s.engine l).next

theorem SameWalk.trans {l : Line} {s t u : State} (h : SameWalk l s t) (k : SameWalk l t u) : SameWalk l s u :=
  ⟨k.1.trans h.1, k.2.trans h.2⟩

theorem leaveSlot_walk (l : Line) (o : Outcome) (s : State) : SameWalk l s (leaveSlot l o s) := by
  unfold leaveSlot; split <;> simp [SameWalk]

theorem beginAttempt_walk (l : Line) (s : State) : SameWalk l s (beginAttempt l s) := by
  unfold beginAttempt SameWalk
  split
  · simp
  · simp only [State.setEngine_same, Engine.transmit, Engine.countAttempt]
    cases (s.engine l).request <;> simp

theorem sendSlot_walk (l : Line) (c : Slot) (s : State) : SameWalk l s (sendSlot l c s) := by
  have h1 : ∀ u, SameWalk l u (takeSnapshot l c u) := by intro u; unfold takeSnapshot; split <;> simp [SameWalk]
  have h2 : ∀ u, SameWalk l u (takeForSlot l c u) := by
    intro u; unfold takeForSlot; split
    · unfold takeBuffer; split
      · simp [SameWalk]
      · simp only [SameWalk]; split <;> simp [State.appendEvent]
    · simp [SameWalk]
  exact ((h1 s).trans (h2 _)).trans (beginAttempt_walk l _)

/-- A slot that begins uses up its entry: the walk position passes it (R61). -/
theorem beginSlot_walk (l : Line) (n : Notice) (r : ReadEntry) (s : State) :
    ((beginSlot l n r s).engine l).walk = r.index.val + 1 ∧ ((beginSlot l n r s).engine l).next = none := by
  have key : ∀ t, SameWalk l (s.setEngine l ((s.engine l).enterSlot (newSlot s n r))) t →
      (t.engine l).walk = r.index.val + 1 ∧ (t.engine l).next = none := by
    intro t h
    simpa [SameWalk, Engine.enterSlot, newSlot] using h
  apply key
  unfold beginSlot
  simp only
  split
  · exact leaveSlot_walk ..
  · split
    · exact ⟨rfl, rfl⟩
    · split
      · exact sendSlot_walk ..
      · unfold startStation
        split
        · exact sendSlot_walk ..
        · simp only
          split
          · exact SameWalk.trans (by simp [SameWalk]) (leaveSlot_walk ..)
          · exact SameWalk.trans (by simp [SameWalk]) (sendSlot_walk ..)
          · refine SameWalk.trans ?_ (sendSlot_walk ..)
            simp [SameWalk]

/-- An entry read answers an index at or above the one named (R38). -/
theorem Schedule.entryRead_index {sch : Schedule} {period : Half} {l : Line} {n : Notice} {k : Nat} {r : ReadEntry}
    (h : sch.entryRead period l n k = some r) : k ≤ r.index.val := by
  unfold Schedule.entryRead at h
  split at h
  · simp only [Option.map_eq_some_iff] at h
    obtain ⟨i, hi, rfl⟩ := h
    have := List.find?_some hi
    simp at this
    exact this.1
  · cases h

/-- The entry that an engine keeps after a read that found none kept lies at or above its walk position. -/
theorem readNext_index {l : Line} {s : State} (hk : (s.engine l).next = none) :
    readNext l s = s ∨ ∃ r, ((readNext l s).engine l).next = some r ∧ (s.engine l).walk ≤ r.index.val := by
  rw [readNext_answer hk]
  generalize hx : (if (s.engine l).state = .wait ∧ (s.engine l).slot = none then
      (s.engine l).notice.bind fun m => s.schedule.entryRead s.timer.period l m (s.engine l).walk
    else none) = x
  cases x with
  | none => exact .inl (State.setEngine_self (by rw [← hk]))
  | some r =>
    refine .inr ⟨r, by simp, ?_⟩
    split at hx
    · obtain ⟨n, -, hr⟩ := Option.bind_eq_some_iff.mp hx
      exact Schedule.entryRead_index hr
    · cases hx

/-- Enough rounds are enough: each uses up an entry, so a walk at a position needs no more than one round for each entry from there on, and
the read that finds the list finished (R61). -/
theorem walkOn_rounds (l : Line) (k : Nat) : ∀ s, (s.engine l).next = none → 33 ≤ (s.engine l).walk + k →
    walkOn l (k + 1) s = walkOn l k s := by
  induction k with
  | zero =>
    intro s hk hw
    have hr : readNext l s = s := by
      rcases readNext_index hk with h | ⟨r, -, h⟩
      · exact h
      · have := r.index.isLt; omega
    simp only [walkOn, hr, hk]
    split <;> simp_all
  | succ k ih =>
    intro s hk hw
    rw [walkOn, walkOn.eq_def l (k + 1) s]
    simp only
    rcases readNext_index hk with h | ⟨r, hr, hi⟩
    · rw [h, hk]; split <;> simp_all
    · rw [hr]
      split
      · rename_i n x hn hx
        cases hx
        split
        · have := beginSlot_walk l n r (readNext l s)
          exact ih _ this.2 (by omega)
        · rfl
      · rfl

/-! ## Attempts -/

theorem Outcome.Failed.ne_ok {o : Outcome} (h : o.Failed) : o ≠ .ok ∧ o ≠ .refused := by
  rcases h with h | h | h | h | h | h | h <;> subst h <;> simp

/-- A failed outcome is counted as a timeout or as corrupt, never as both (R95). -/
theorem Outcome.Failed.counted {o : Outcome} (h : o.Failed) : o = .timeout ∨ (o ≠ .timeout ∧ o.corrupt = true) := by
  rcases h with h | h | h | h | h | h | h <;> subst h <;> simp [Outcome.corrupt]

/-- OK and REFUSED are not counted by an attempt report (R95). -/
theorem Station.attempt_good (r : Station) {o : Outcome} (h : o = .ok ∨ o = .refused) : r.attempt o = r := by
  rcases h with h | h <;> subst h <;> simp [Station.attempt, Outcome.corrupt]

theorem reportAttempt_good (l : Line) (address : Byte) {o : Outcome} (h : o = .ok ∨ o = .refused) (s : State) :
    reportAttempt l address o s = s := by
  unfold reportAttempt
  cases stationIx address with
  | none => rfl
  | some i => simp only [Station.attempt_good _ h]; exact State.setStation_self s l i

/-- An attempt that ends with a failed outcome is counted and waits in GAP for its retry decision (R72, R77). -/
theorem endAttempt_failed {s : State} {l : Line} {a : Attempt} {o : Outcome} (h : (s.engine l).attempt = some a) (ho : o.Failed) :
    endAttempt l o s =
      let t := if a.kind = kindBroadcast then s else reportAttempt l a.station o s
      t.setEngine l { t.engine l with state := .gap, attempt := none, tx := none, elapsed := 0, failed := some o } := by
  have hd : decide (o = .ok ∨ o = .refused) = false := by simp [ho.ne_ok]
  unfold endAttempt
  simp only [h, hd, Bool.false_eq_true, if_false]

/-- An attempt that ends OK or REFUSED completes its request, or else its slot (R72, R74, R75, R136). -/
theorem endAttempt_good {s : State} {l : Line} {a : Attempt} {o : Outcome} (h : (s.engine l).attempt = some a)
    (ho : o = .ok ∨ o = .refused) :
    endAttempt l o s =
      let t := s.setEngine l { s.engine l with state := .gap, attempt := none, tx := none, elapsed := 0, failed := none }
      if (s.engine l).request.isSome = true then completeRequest l o (some a) t else finishSlot l o (some a) t := by
  have hd : decide (o = .ok ∨ o = .refused) = true := by simp [ho]
  have hs : (if a.kind = kindBroadcast then s else reportAttempt l a.station o s) = s := by
    split
    · rfl
    · exact reportAttempt_good l a.station ho s
  unfold endAttempt
  simp only [h, hd, if_true, hs, State.setEngine_same]
  cases (s.engine l).request <;> rfl

/-- A slot context that holds a slot is left with its result written (R76). -/
theorem leaveSlot_slot {s : State} {l : Line} {c : Slot} (o : Outcome) (h : (s.engine l).slot = some c) :
    leaveSlot l o s =
      (s.withSchedule (s.schedule.writeResult l c.index c.changeovers (c.result o (s.engine l).generation))).setEngine l
        { s.engine l with slot := none, snapshot := none } := by
  simp [leaveSlot, h]

/-- A kept reply's header goes into its buffer (R74, R136). -/
theorem writeHeader_kept {l : Line} {b : Fin 72} {a : Attempt} {r : Reply} {c : Capture} (label : Byte) (s : State)
    (hr : a.reply = some r) (hc : a.arrival = some c) :
    writeHeader l b a label s = s.setBuffer b (s.pool.buffers[b].withHeader l a r c label) := by
  simp [writeHeader, Attempt.kept, hr, hc]

theorem finalNibble_kept {o : Outcome} {a : Attempt} {r : Reply} (ho : o = .ok ∨ o = .refused) (hr : a.reply = some r) :
    finalNibble o (some a) = some r.nibble := by
  simp [finalNibble, ho, hr]

end Sys2Proof.Machine
end

