-- ==== Sys2Proof/Laws/Boundary.lean ====
section
/-! SUPPORT. Cycle boundaries: what a notice does to an engine, and what the appends of a boundary do to the Event Queue. -/

namespace Sys2Proof.Machine

/-- Leaving a slot, if there is one, writes a result and empties the slot context; nothing else. -/
theorem leaveSlot_only (l : Line) (o : Outcome) (s : State) :
    ∃ results slot snapshot, leaveSlot l o s =
      (s.withSchedule { s.schedule with results := results }).setEngine l
        { s.engine l with slot := slot, snapshot := snapshot } := by
  cases h : (s.engine l).slot with
  | none =>
    refine ⟨s.schedule.results, (s.engine l).slot, (s.engine l).snapshot, ?_⟩
    have : leaveSlot l o s = s := by simp [leaveSlot, h]
    rw [this]; exact (State.setEngine_self (s := s.withSchedule s.schedule) rfl).symm
  | some c =>
    refine ⟨(s.schedule.writeResult l c.index c.changeovers (c.result o (s.engine l).generation)).results, none, none, ?_⟩
    rw [← Schedule.writeResult_only]; exact leaveSlot_slot o h

/-- The unbegun entries of a walk get result writes only. -/
theorem squeezeUnbegun_only (l : Line) (s : State) :
    ∃ results, squeezeUnbegun l s = s.withSchedule { s.schedule with results := results } := by
  unfold squeezeUnbegun
  cases (s.engine l).notice with
  | none => exact ⟨s.schedule.results, rfl⟩
  | some n => exact ⟨_, congrArg s.withSchedule (Schedule.squeezeFrom_only ..)⟩

theorem takeNotice_deaf {l : Line} {n : Option Notice} {s : State} (h : (s.engine l).deaf = true) : takeNotice l n s = s := by
  simp [takeNotice, h]

/-- A notice that reaches an engine: results are written, the engine holds the notice with its walk at the start, an attempt in flight is
counted, and only the slot contexts and the kept entry may change besides (R58, R59, R63, R79). -/
theorem takeNotice_heard {l : Line} {n : Option Notice} {s : State} (h : (s.engine l).deaf = false) :
    ∃ results next slot snapshot, (n = none → next = none)
      ∧ takeNotice l n s = (s.withSchedule { s.schedule with results := results }).setEngine l
          { (s.engine l).takeNotice n with next := next, slot := slot, snapshot := snapshot } := by
  obtain ⟨results, h2⟩ := squeezeUnbegun_only l s
  -- the end of a notice: one entry read
  have read : ∀ (u : State) (slot : Option Slot) (snapshot : Option Snapshot),
      (u.engine l) = { (s.engine l).takeNotice n with slot := slot, snapshot := snapshot } →
      ∃ next, (n = none → next = none) ∧ readNext l u = u.setEngine l
        { (s.engine l).takeNotice n with next := next, slot := slot, snapshot := snapshot } := by
    intro u slot snapshot hu
    obtain ⟨x, h5, h6⟩ := readNext_only l u
    rw [hu] at h5 h6
    exact ⟨x, fun hn => h6 hn, h5⟩
  unfold takeNotice
  simp only [h, Bool.false_eq_true, if_false, h2, State.withSchedule_engine]
  split
  · obtain ⟨results', slot, snapshot, h4⟩ := leaveSlot_only l .ok
      ((s.withSchedule { s.schedule with results := results }).setEngine l ((s.engine l).takeNotice n))
    obtain ⟨next, h5, h6⟩ := read _ slot snapshot ((congrArg (State.engine · l) h4).trans (by simp))
    refine ⟨results', next, slot, snapshot, h5, h6.trans ?_⟩
    refine (congrArg (State.setEngine · l _) h4).trans ?_
    simp; cases l <;> rfl
  · obtain ⟨next, h5, h6⟩ := read
      ((s.withSchedule { s.schedule with results := results }).setEngine l ((s.engine l).takeNotice n))
      ((s.engine l).takeNotice n).slot ((s.engine l).takeNotice n).snapshot (by simp)
    exact ⟨results, next, ((s.engine l).takeNotice n).slot, ((s.engine l).takeNotice n).snapshot, h5,
      h6.trans (by simp)⟩

/-- Both notices: results are written, and each line hears its own or is deaf to it; nothing else changes. -/
theorem noticeBoth_only (n : Option Notice) (s : State) :
    ∃ results, (noticeBoth n s).schedule = { s.schedule with results := results }
      ∧ noticeBoth n s = { s with schedule := (noticeBoth n s).schedule, lines := (noticeBoth n s).lines }
      ∧ ∀ l, if (s.engine l).deaf = true then (noticeBoth n s).engine l = s.engine l
          else ∃ next slot snapshot, (n = none → next = none) ∧ (noticeBoth n s).engine l =
            { (s.engine l).takeNotice n with next := next, slot := slot, snapshot := snapshot } := by
  have one : ∀ l s, ∃ results,
      takeNotice l n s =
        { s with schedule := { s.schedule with results := results }, lines := (takeNotice l n s).lines }
      ∧ (takeNotice l n s).schedule = { s.schedule with results := results }
      ∧ (∀ m, m ≠ l → (takeNotice l n s).engine m = s.engine m)
      ∧ if (s.engine l).deaf = true then (takeNotice l n s).engine l = s.engine l
        else ∃ next slot snapshot, (n = none → next = none) ∧ (takeNotice l n s).engine l =
          { (s.engine l).takeNotice n with next := next, slot := slot, snapshot := snapshot } := by
    intro l s
    cases hd : (s.engine l).deaf with
    | true => rw [takeNotice_deaf hd]; exact ⟨s.schedule.results, rfl, rfl, fun _ _ => rfl, by simp⟩
    | false =>
      obtain ⟨results, next, slot, snapshot, h1, h2⟩ := takeNotice_heard (n := n) hd
      rw [h2]
      refine ⟨results, rfl, rfl, fun m hm => by simp [State.setEngine_other _ _ hm], ?_⟩
      simp only [Bool.false_eq_true, if_false]
      exact ⟨next, slot, snapshot, h1, by simp⟩
  unfold noticeBoth
  obtain ⟨r1, a1, a2, a3, a4⟩ := one .a s
  obtain ⟨r2, b1, b2, b3, b4⟩ := one .b (takeNotice .a n s)
  refine ⟨r2, by rw [b2, a2], by rw [b1]; simp; rw [a1]; simp, ?_⟩
  intro l
  cases l
  · rw [b3 .a (by simp)]; exact a4
  · rw [a3 .b (by simp)] at b4; exact b4

/-- The appends of a boundary only add to the queue, from the lists given, and take nothing but open choices besides; with room for four
more and at most one event in each list, all of them land. -/
theorem appendBoundary_adds (own swap overrunA overrunB : List Event) (s : State) :
    ∃ q c, s.choices ≤ c ∧ appendBoundary own swap overrunA overrunB s = (s.withEvents q).withChoices c
      ∧ s.events.entries <+: q.entries ∧ q.reserved = s.events.reserved
      ∧ (∀ e ∈ q.entries.drop s.events.entries.length, e ∈ own ∨ e ∈ swap ∨ e ∈ overrunA ∨ e ∈ overrunB)
      ∧ (own.length ≤ 1 → swap.length ≤ 1 → overrunA.length ≤ 1 → overrunB.length ≤ 1 → s.events.load + 4 ≤ 32 →
          ∀ e, e ∈ own ∨ e ∈ swap ∨ e ∈ overrunA ∨ e ∈ overrunB → e ∈ q.entries.drop s.events.entries.length) := by
  -- the appends are the events of the four lists in some order
  have main : ∃ (es : List Event) (c : Nat), s.choices ≤ c
      ∧ appendBoundary own swap overrunA overrunB s = (s.withEvents (es.foldl EventQueue.append s.events)).withChoices c
      ∧ (∀ e, e ∈ es → e ∈ own ∨ e ∈ swap ∨ e ∈ overrunA ∨ e ∈ overrunB)
      ∧ (own.length ≤ 1 → (∀ e, e ∈ own ∨ e ∈ swap ∨ e ∈ overrunA ∨ e ∈ overrunB → e ∈ es)
          ∧ es.length = own.length + swap.length + overrunA.length + overrunB.length) := by
    have order : ∃ (es : List Event) (c : Nat), s.choices ≤ c ∧ eitherOrder s (overrunA.map Append.plain) (overrunB.map Append.plain)
        = (es.map Append.plain, s.withChoices c) ∧ (∀ e, e ∈ es ↔ e ∈ overrunA ∨ e ∈ overrunB)
        ∧ es.length = overrunA.length + overrunB.length := by
      unfold eitherOrder
      split
      · rename_i h; simp at h; subst h; exact ⟨overrunB, s.choices, le_rfl, rfl, by simp, by simp⟩
      · split
        · rename_i h; simp at h; subst h; exact ⟨overrunA, s.choices, le_rfl, rfl, by simp, by simp⟩
        · split
          · exact ⟨overrunA ++ overrunB, s.choices + 1, by omega, by simp [State.drawn], by simp, by simp⟩
          · exact ⟨overrunB ++ overrunA, s.choices + 1, by omega, by simp [State.drawn], by simp [or_comm], by simp; omega⟩
    obtain ⟨es, c, hc, h1, h2, h3⟩ := order
    unfold appendBoundary
    rw [h1]
    cases own with
    | nil =>
      refine ⟨swap ++ es, c, hc, ?_, ?_, ?_⟩
      · simp only [State.appendAll, ← List.map_append, foldl_apply_plain]; rfl
      · intro e he; simp [h2] at he; tauto
      · intro _
        refine ⟨?_, by simp [h3]; omega⟩
        intro e he; simp [h2] at he ⊢; tauto
    | cons x rest =>
      obtain ⟨front, back, c', k1, k2, k3⟩ :=
        anyPlace_spec (s.withChoices c) (Append.plain x) (swap.map Append.plain ++ es.map Append.plain)
      rw [← List.map_append] at k1
      obtain ⟨xs, ys, hxy, hf, hb⟩ := List.map_eq_append_iff.mp k1
      subst hf; subst hb
      have mem : ∀ e, e ∈ xs ++ x :: ys ↔ e = x ∨ e ∈ swap ∨ e ∈ es := by
        intro e
        have : e ∈ swap ∨ e ∈ es ↔ e ∈ xs ∨ e ∈ ys := by rw [← List.mem_append, hxy, List.mem_append]
        simp only [List.mem_append, List.mem_cons]; tauto
      refine ⟨xs ++ x :: ys, c', by simpa using hc.trans k2, ?_, ?_, ?_⟩
      · simp only [k3, State.appendAll]
        rw [← List.map_cons, ← List.map_append, foldl_apply_plain]; rfl
      · intro e he; rw [mem, h2] at he; simp; tauto
      · intro hone
        have hr : rest = [] := by simpa using hone
        subst hr
        refine ⟨?_, ?_⟩
        · intro e he; rw [mem, h2]; simp at he; tauto
        · have := congrArg List.length hxy
          simp at this ⊢; omega
  obtain ⟨es, c, hc, h1, h2, h3⟩ := main
  obtain ⟨a1, a2, a3⟩ := foldl_append_adds es s.events
  refine ⟨_, c, hc, h1, a1, a2, fun e he => h2 e (a3 e he), ?_⟩
  intro l1 l2 l3 l4 hroom e he
  obtain ⟨h4, h5⟩ := h3 l1
  rw [foldl_append_room es s.events (by omega)]
  simpa using h4 e he

/-- A line's overrun event comes at most once at a notice (R79). -/
theorem overrunEvents_length (l : Line) (code : Byte) (e : Engine) : (overrunEvents l code e).length ≤ 1 := by
  unfold overrunEvents
  split
  · split <;> simp
  · simp

theorem overrunEvents_kind {l : Line} {code : Byte} {e : Engine} {x : Event} (h : x ∈ overrunEvents l code e) :
    x.kind = .cycleOverrun := by
  unfold overrunEvents at h
  split at h
  · split at h
    · simp at h; rw [h]
    · simp at h
  · simp at h

/-! ## Whole boundaries, in the words of Sys2Proof/Safety.lean -/

theorem otherLine_ne (l : Line) : otherLine l ≠ l := by cases l <;> simp [otherLine]

/-- The store's own test of a due entry is R34 and R36. -/
theorem SlotList.dueAt_iff (t : SlotList) (cycle : Half) (i : Fin 32) : t.dueAt cycle i = true ↔ t.IsDue cycle i := by
  simp only [SlotList.dueAt, SlotList.IsDue, Entry.dueIn, Entry.cycles, Bool.and_eq_true, decide_eq_true_iff]
  exact and_congr_right fun _ => decide_eq_true_iff

theorem deaf_iff (e : Engine) : e.deaf = true ↔ (e.state = .off ∨ e.disabling = true) := by simp [Engine.deaf]

/-- An OPEN slot ends at a notice exactly when the engine's words say so (R63). -/
theorem openSlotOver_notice {l : Line} {u : State} {e : Engine} {n : Option Notice} (hu : u.engine l = e.takeNotice n) :
    openSlotOver l u = true ↔ ∃ c, e.EndsAtNotice c := by
  unfold openSlotOver Engine.EndsAtNotice
  rw [hu]
  cases hs : e.slot with
  | none => simp [Engine.takeNotice, hs]
  | some c => simp [Engine.takeNotice, hs, Slot.isOpen, timeRemaining, and_assoc]

/-- The unbegun due entries of the held walk get SQUEEZED results, every other result stands (R58, step 1; R50). -/
theorem squeezeUnbegun_results (l : Line) (s : State) : ∃ r, squeezeUnbegun l s = s.withSchedule { s.schedule with results := r }
    ∧ r.get (otherLine l) = s.schedule.results.get (otherLine l)
    ∧ ∀ i : Fin 32, (∀ m, (s.engine l).Unbegun s.schedule l i m →
        (r.get l)[i] = { SlotResult.none with outcome := .squeezed, cycle := m.cycle })
      ∧ ((∀ m, ¬ (s.engine l).Unbegun s.schedule l i m) → (r.get l)[i] = (s.schedule.results.get l)[i]) := by
  unfold squeezeUnbegun Engine.Unbegun
  cases hn : (s.engine l).notice with
  | none => exact ⟨s.schedule.results, rfl, rfl, fun i => by simp⟩
  | some n =>
    by_cases hc : n.changeovers = s.schedule.changeovers
    · refine ⟨(s.schedule.squeezeFrom l n (s.engine l).walk).results, congrArg s.withSchedule (Schedule.squeezeFrom_only ..), ?_, ?_⟩
      · unfold Schedule.squeezeFrom; cases l <;> simp [hc, Two.get, Two.set, otherLine]
      · intro i
        have key : ((s.schedule.squeezeFrom l n (s.engine l).walk).results.get l)[i] =
          if (s.engine l).walk ≤ i.val ∧ (s.schedule.activeBank.get l).dueAt n.cycle i = true then squeezedResult n.cycle else (s.schedule.results.get l)[i] := by
          unfold Schedule.squeezeFrom; cases l <;> simp [hc, Two.get, Two.set]
        rw [key]
        constructor
        · rintro m ⟨h1, h2, h3, h4⟩
          cases h1
          rw [if_pos ⟨h3, (SlotList.dueAt_iff ..).2 h4⟩]; rfl
        · intro h
          rw [if_neg]
          rintro ⟨h3, h4⟩
          exact h n ⟨rfl, hc, h3, (SlotList.dueAt_iff ..).1 h4⟩
    · refine ⟨s.schedule.results, ?_, rfl, ?_⟩
      · simp [Schedule.squeezeFrom, hc]
      · intro i; exact ⟨by rintro m ⟨h1, h2, -⟩; cases h1; exact absurd h2 hc, fun _ => rfl⟩

/-- An entry read does not look at the results. -/
theorem Schedule.entryRead_results (s : Schedule) (r) (period : Half) (l : Line) (n : Notice) (k : Nat) :
    ({ s with results := r } : Schedule).entryRead period l n k = s.entryRead period l n k := rfl

/-- A notice at a line: what NoticeTaken says, and the other line as it was. -/
theorem takeNotice_taken (l : Line) (n : Option Notice) (s : State) :
    NoticeTaken s.schedule s.timer.period l n (s.engine l) ((takeNotice l n s).engine l) (s.schedule.results.get l)
      ((takeNotice l n s).schedule.results.get l)
    ∧ (takeNotice l n s).schedule.results.get (otherLine l) = s.schedule.results.get (otherLine l)
    ∧ (takeNotice l n s).engine (otherLine l) = s.engine (otherLine l)
    ∧ (takeNotice l n s).schedule = { s.schedule with results := (takeNotice l n s).schedule.results }
    ∧ takeNotice l n s = { s with schedule := (takeNotice l n s).schedule, lines := (takeNotice l n s).lines } := by
  unfold NoticeTaken
  by_cases hd : (s.engine l).deaf = true
  · rw [takeNotice_deaf hd, if_pos ((deaf_iff _).1 hd)]
    exact ⟨⟨rfl, rfl⟩, rfl, rfl, rfl, rfl⟩
  rw [if_neg (fun h => hd ((deaf_iff _).2 h))]
  obtain ⟨r, h1, h2, h3⟩ := squeezeUnbegun_results l s
  have eq : takeNotice l n s =
      let t := (s.withSchedule { s.schedule with results := r }).setEngine l ((s.engine l).takeNotice n)
      readNext l (if openSlotOver l t then leaveSlot l .ok t else t) := by
    unfold takeNotice
    rw [if_neg hd, h1]
    rfl
  simp only at eq
  generalize ht : (s.withSchedule { s.schedule with results := r }).setEngine l ((s.engine l).takeNotice n) = t at eq
  have hte : t.engine l = (s.engine l).takeNotice n := by simp [← ht]
  have hto : t.engine (otherLine l) = s.engine (otherLine l) := by
    rw [← ht, State.setEngine_other _ _ (otherLine_ne l)]; rfl
  have hsch : t.schedule = { s.schedule with results := r } := by simp [← ht]
  have hfr : t = { s with schedule := t.schedule, lines := t.lines } := by rw [← ht]; rfl
  have htm : t.timer = s.timer := by rw [← ht]; rfl
  have hover := openSlotOver_notice (l := l) hte
  rw [eq]
  clear eq ht
  cases ho : openSlotOver l t with
  | true =>
    obtain ⟨c, hc⟩ := hover.1 ho
    have hsl : (t.engine l).slot = some { c with noticeHeld := false } := by simp [hte, Engine.takeNotice, hc.1]
    have hg : (t.engine l).generation = (s.engine l).generation := by simp [hte, Engine.takeNotice, Engine.generation]
    have hres : ({ c with noticeHeld := false } : Slot).result .ok (t.engine l).generation = c.result .ok (s.engine l).generation := by
      rw [hg]; rfl
    have uniq : ∀ c', (s.engine l).EndsAtNotice c' → c' = c := fun c' h => by simpa [hc.1] using h.1.symm
    have hw : ∀ i : Fin 32, (((t.schedule.writeResult l c.index c.changeovers (c.result .ok (s.engine l).generation)).results).get l)[i]
        = if c.index = i ∧ c.changeovers = s.schedule.changeovers then c.result .ok (s.engine l).generation else (r.get l)[i] := by
      intro i
      rw [hsch]
      unfold Schedule.writeResult
      by_cases hcc : c.changeovers = s.schedule.changeovers
      · simp only [hcc, if_true, and_true]
        cases l <;> simp only [Two.get, Two.set, setAt] <;> simp [Vector.getElem_set, Fin.ext_iff]
      · simp [hcc]
    have hwo : (t.schedule.writeResult l c.index c.changeovers (c.result .ok (s.engine l).generation)).results.get (otherLine l)
        = r.get (otherLine l) := by
      rw [hsch]; unfold Schedule.writeResult
      split
      · cases l <;> rfl
      · rfl
    have hwf : t.schedule.writeResult l c.index c.changeovers (c.result .ok (s.engine l).generation) =
        { s.schedule with results := (t.schedule.writeResult l c.index c.changeovers (c.result .ok (s.engine l).generation)).results } := by
      rw [hsch]; unfold Schedule.writeResult
      split <;> rfl
    obtain ⟨w, hl, hw', hwo', hwf'⟩ : ∃ w : Schedule,
        leaveSlot l .ok t = (t.withSchedule w).setEngine l { t.engine l with slot := none, snapshot := none }
        ∧ (∀ i : Fin 32, (w.results.get l)[i] =
            if c.index = i ∧ c.changeovers = s.schedule.changeovers then c.result .ok (s.engine l).generation else (r.get l)[i])
        ∧ w.results.get (otherLine l) = r.get (otherLine l) ∧ w = { s.schedule with results := w.results } :=
      ⟨_, (leaveSlot_slot _ hsl).trans (by rw [hres]), hw, hwo, hwf⟩

    rw [if_pos rfl, hl, readNext_answer (by simp [hte, Engine.takeNotice])]
    refine ⟨⟨?_, ?_, ?_, ?_, ?_⟩, ?_, ?_, ?_, ?_⟩
    · simp [hte, Engine.takeNotice]
    · intro c' _; simp
    · intro h; exact absurd hc (h c)
    · simp [hte, Engine.takeNotice, htm]
      rw [hwf']; rfl
    · intro i
      refine ⟨fun c' h hi hcc => ?_, fun h => ?_⟩
      · rw [uniq c' h] at hi hcc ⊢
        simpa [hi, hcc] using hw' i
      · have : (((w.results).get l)[i]) = (r.get l)[i] := by
          rw [hw' i, if_neg]; rintro ⟨hi, hcc⟩; exact h c hc hi hcc
        simpa [this] using h3 i
    · simpa [hwo'] using h2
    · rw [State.setEngine_other _ _ (otherLine_ne l), State.setEngine_other _ _ (otherLine_ne l)]; exact hto
    · simpa using hwf'
    · rw [hfr]; rfl
  | false =>
    have hno : ∀ c, ¬ (s.engine l).EndsAtNotice c := fun c hc => by simp [hover.2 ⟨c, hc⟩] at ho
    rw [if_neg (by simp), readNext_answer (by simp [hte, Engine.takeNotice])]
    refine ⟨⟨?_, ?_, ?_, ?_, ?_⟩, ?_, ?_, ?_, ?_⟩
    · simp [hte, Engine.takeNotice]
    · intro c' h; exact absurd h (hno c')
    · intro h; simp [hte, Engine.takeNotice]
    · simp [hte, Engine.takeNotice, htm]
      rw [hsch]; rfl
    · intro i
      refine ⟨fun c h => absurd h (hno c), fun _ => ?_⟩
      simpa [hsch] using h3 i
    · simpa [hsch] using h2
    · rw [State.setEngine_other _ _ (otherLine_ne l), hto]
    · simp [hsch]
    · rw [hfr]; rfl

/-- The appends of a boundary are its events, one after another, in some order; nothing but open choices is taken besides (log 5). -/
theorem appendBoundary_order (own swap overrunA overrunB : List Event) (s : State) (hown : own.length ≤ 1) :
    ∃ (order : List Event) (c : Nat), s.choices ≤ c ∧ order.Perm (own ++ swap ++ overrunA ++ overrunB)
      ∧ appendBoundary own swap overrunA overrunB s = (s.withEvents (order.foldl EventQueue.append s.events)).withChoices c := by
  have overruns : ∃ (es : List Event) (c : Nat), s.choices ≤ c ∧ es.Perm (overrunA ++ overrunB)
      ∧ eitherOrder s (overrunA.map Append.plain) (overrunB.map Append.plain) = (es.map Append.plain, s.withChoices c) := by
    unfold eitherOrder
    split
    · rename_i h; simp at h; subst h; exact ⟨overrunB, s.choices, le_rfl, .refl _, rfl⟩
    · split
      · rename_i h; simp at h; subst h; exact ⟨overrunA, s.choices, le_rfl, by simp, rfl⟩
      · split
        · exact ⟨overrunA ++ overrunB, s.choices + 1, by omega, .refl _, by simp [State.drawn]⟩
        · exact ⟨overrunB ++ overrunA, s.choices + 1, by omega, List.perm_append_comm, by simp [State.drawn]⟩
  obtain ⟨es, c, hc, hp, h1⟩ := overruns
  unfold appendBoundary
  rw [h1]
  match own, hown with
  | [], _ =>
    refine ⟨swap ++ es, c, hc, by simpa [List.append_assoc] using hp.append_left swap, ?_⟩
    simp only [State.appendAll, ← List.map_append, foldl_apply_plain]; rfl
  | [x], _ =>
    obtain ⟨front, back, c', k1, k2, k3⟩ :=
      anyPlace_spec (s.withChoices c) (Append.plain x) (swap.map Append.plain ++ es.map Append.plain)
    rw [← List.map_append] at k1
    obtain ⟨xs, ys, hxy, hf, hb⟩ := List.map_eq_append_iff.mp k1
    subst hf; subst hb
    refine ⟨xs ++ x :: ys, c', by simpa using hc.trans k2, ?_, ?_⟩
    · refine List.perm_middle.trans ?_
      rw [← hxy]
      simpa [List.append_assoc] using (hp.append_left swap)
    · simp only [k3, State.appendAll]
      rw [← List.map_cons, ← List.map_append, foldl_apply_plain]; rfl

/-- Events called for at one moment, appended in some order (R143, R146). -/
theorem appended_of_order {q : EventQueue} {called order : List Event} (h : order.Perm called) :
    Appended q called (order.foldl EventQueue.append q) :=
  ⟨order, h, rfl, fun hr => foldl_append_room order q (by rw [h.length_eq]; exact hr)⟩

/-- The engine's overrun is the one that the notice calls for (R79). -/
theorem overrunEvents_called (l : Line) (code : Byte) (e : Engine) : overrunEvents l code e = overrunCalled l code e := by
  unfold overrunEvents overrunCalled
  cases e.attempt with
  | none => rfl
  | some a =>
    cases e.slot with
    | none => rfl
    | some c =>
      refine if_congr ?_ (by cases e.request <;> rfl) rfl
      simp only [Engine.inFlight, Engine.deaf, Bool.or_eq_true, Bool.or_eq_false_iff, beq_iff_eq, beq_eq_false_iff_ne]
      constructor
      · rintro ⟨h1, h2, h3⟩; exact ⟨h2.2, by tauto, h3⟩
      · rintro ⟨h1, h2, h3⟩; exact ⟨by tauto, ⟨by rintro h; simp [h] at h2, h1⟩, h3⟩

/-- Both notices: what each line takes, and all else as it was (R52). -/
theorem noticeBoth_taken (n : Option Notice) (s : State) :
    (∀ l, NoticeTaken s.schedule s.timer.period l n (s.engine l) ((noticeBoth n s).engine l) (s.schedule.results.get l)
      ((noticeBoth n s).schedule.results.get l))
    ∧ (noticeBoth n s).schedule = { s.schedule with results := (noticeBoth n s).schedule.results }
    ∧ noticeBoth n s = { s with schedule := (noticeBoth n s).schedule, lines := (noticeBoth n s).lines } := by
  unfold noticeBoth
  obtain ⟨a1, a2, a3, a4, a5⟩ := takeNotice_taken .a n s
  obtain ⟨b1, b2, b3, b4, b5⟩ := takeNotice_taken .b n (takeNotice .a n s)
  simp only [otherLine] at a2 a3 b2 b3
  refine ⟨?_, ?_, ?_⟩
  · intro l
    cases l
    · rw [b2, b3]; exact a1
    · rw [a2, a3] at b1
      have ht : (takeNotice .a n s).timer = s.timer := by rw [a5]
      rw [ht, a4] at b1
      exact b1
  · rw [b4, a4]
  · rw [b5, a5]

/-- A cycle begin, from a state whose timer alone has been set (R22). -/
theorem cycleBegin_begun (own : Option EventKind) (s : State) (b : Timer) (hc : b.cycleCount = s.timer.cycleCount) :
    CycleBegun s b (syncEvent own (s.timer.cycleCount + 1)) (cycleBegin own (s.withTimer b))
    ∧ (cycleBegin own (s.withTimer b)).host = s.host := by
  unfold cycleBegin
  simp only [State.withTimer_timer, State.withTimer_schedule, State.withTimer_engine, overrunEvents_called]
  have hcount : b.begun.cycleCount = s.timer.cycleCount + 1 := by rw [← hc]; rfl
  rw [hcount]
  generalize hs1 : (((s.withTimer b).withTimer b.begun).withImages (s.withTimer b).images.publishMarked).withSchedule s.schedule.swap = s1
  obtain ⟨n1, n2, n3⟩ := noticeBoth_taken
    (some { cycle := s.timer.cycleCount + 1, bank := s.schedule.swap.active, changeovers := s.schedule.swap.changeovers }) s1
  have g1 : s1.timer = b.begun := by rw [← hs1]; rfl
  have g2 : s1.schedule = s.schedule.swap := by rw [← hs1]; rfl
  have g3 : s1.images = s.images.publishMarked := by rw [← hs1]; rfl
  have g4 : ∀ l, s1.engine l = s.engine l := by intro l; rw [← hs1]; rfl
  have g5 : s1 = { s with timer := s1.timer, images := s1.images, schedule := s1.schedule } := by rw [← hs1]; rfl
  clear hs1
  generalize noticeBoth _ s1 = u at n1 n2 n3
  have hev : u.events = s.events := by rw [n3, g5]
  obtain ⟨order, c, -, hp, happ⟩ := appendBoundary_order (syncEvent own (s.timer.cycleCount + 1))
    (s.schedule.swapEvents (s.timer.cycleCount + 1)) (overrunCalled .a 0 (s.engine .a)) (overrunCalled .b 0 (s.engine .b)) u
    (by unfold syncEvent; split <;> simp)
  rw [happ, hev]
  have hper : s1.timer.period = b.period := by rw [g1]; rfl
  refine ⟨⟨?_, ?_, ?_, ?_, ?_, ?_⟩, ?_⟩
  · simp; rw [n3]; simp [g1, Timer.begun, hc, Timer.syncIsOutput]; cases b.mode <;> simp
  · intro m; simp; rw [n3]; simp [g3, ImageStore.publishMarked, Image.publish]
  · simp only [State.withChoices_schedule, State.withEvents_schedule]
    rw [n2, g2]
    unfold Schedule.swap
    split <;> rfl
  · intro l
    have h := n1 l
    rw [g4, hper, g2] at h
    simp only [State.withChoices_engine, State.withEvents_engine, State.withChoices_schedule, State.withEvents_schedule]
    have hu : u.schedule = { s.schedule.swap with results := u.schedule.results } := by rw [← g2]; exact n2
    have hr : s.schedule.swap.results.get l =
        if s.schedule.changeover = .armed then Vector.replicate 32 SlotResult.none else s.schedule.results.get l := by
      unfold Schedule.swap; split
      · cases l <;> rfl
      · rfl
    rw [← hr]
    have ha : u.schedule.active = s.schedule.swap.active ∧ u.schedule.changeovers = s.schedule.swap.changeovers := by
      rw [hu]; exact ⟨rfl, rfl⟩
    rw [ha.1, ha.2]
    generalize u.schedule.results.get l = R at h ⊢
    rw [hu]
    exact h
  · have : s.schedule.swapEvents (s.timer.cycleCount + 1) = (if s.schedule.changeover = .armed then
          [{ kind := .changeoverDone, cycle := s.timer.cycleCount + 1, code := if s.schedule.active = true then 0 else 1 }]
        else []) := by
      unfold Schedule.swapEvents; split
      · cases s.schedule.active <;> rfl
      · rfl
    rw [this] at hp
    exact appended_of_order hp
  · rw [n3, g5]; rfl
  · simp; rw [n3, g5]

/-- A stop boundary, from a state whose timer alone has been set (R23). -/
theorem stopBoundary_ended (s : State) (b : Timer) : CyclesEnded s b (stopBoundary (s.withTimer b)) := by
  unfold stopBoundary
  simp only [State.withTimer_timer, State.withTimer_engine, overrunEvents_called]
  generalize hs1 : (s.withTimer b).withTimer b.stopped = s1
  obtain ⟨n1, n2, n3⟩ := noticeBoth_taken none s1
  have g1 : s1.timer = b.stopped := by rw [← hs1]; rfl
  have g2 : s1.schedule = s.schedule := by rw [← hs1]; rfl
  have g4 : ∀ l, s1.engine l = s.engine l := by intro l; rw [← hs1]; rfl
  have g5 : s1 = { s with timer := s1.timer } := by rw [← hs1]; rfl
  clear hs1
  generalize noticeBoth none s1 = u at n1 n2 n3
  have hev : u.events = s.events := by rw [n3, g5]
  obtain ⟨order, c, -, hp, happ⟩ := appendBoundary_order []  [] (overrunCalled .a 1 (s.engine .a)) (overrunCalled .b 1 (s.engine .b)) u
    (by simp)
  rw [happ, hev]
  have hper : s1.timer.period = b.period := by rw [g1]; rfl
  refine ⟨?_, ?_, ?_, ?_, ?_⟩
  · simp; rw [n3]; simp [g1, Timer.stopped]
  · simp only [State.withChoices_schedule, State.withEvents_schedule]; rw [← g2]; exact n2
  · intro l
    have h := n1 l
    rw [g4, hper, g2] at h
    simp only [State.withChoices_engine, State.withEvents_engine, State.withChoices_schedule, State.withEvents_schedule]
    have hu : u.schedule = { s.schedule with results := u.schedule.results } := by rw [← g2]; exact n2
    generalize u.schedule.results.get l = R at h ⊢
    rw [hu]
    exact h
  · exact appended_of_order (by simpa using hp)
  · rw [n3, g5]; rfl

end Sys2Proof.Machine
end

