-- ==== Sys2Proof/Laws/Clock.lean ====
section
/-! SUPPORT. What a moment still owes, as the clock takes it, and where a start edge of that moment falls. -/

namespace Sys2Proof.Machine

/-- A settled state owes nothing. -/
theorem settle_settled {s : State} (h : s.Settled) : settle s = s := by
  simp [settle, h.1, h.2]

/-- Nothing is claimed where nothing has begun. -/
@[simp] theorem claimEdge_self (l : Line) (s : State) : claimEdge l s s = s := by
  exact if_neg fun h => h.1 h.2.2

theorem settleMoment_settled {s : State} (h : s.Settled) : settleMoment s = s := by
  simp [settleMoment, settle_settled h]

/-- All that claiming an edge can do: nothing, or the character in reception on a line that has begun to send gets the place of its edge
(R13). -/
theorem claimEdge_cases (l : Line) (s t : State) :
    claimEdge l s t = t
    ∨ ((s.engine l).state ≠ .transmit ∧ (t.engine l).state = .transmit ∧ claimEdge l s t = t.setEngine l { t.engine l with
        rx := { (t.engine l).rx with char := (t.engine l).rx.char.map fun p => { p with place := (t.engine l).edgePlace } } }) := by
  by_cases h : (s.engine l).state ≠ .transmit ∧ (s.engine l).edgeNow = true ∧ (t.engine l).state = .transmit
  · exact .inr ⟨h.1, h.2.2, if_pos h⟩
  · exact .inl (if_neg h)

/-- The places a start edge can have, by engine state (R8, R13). -/
theorem edgePlace_transmit {e : Engine} {a : Attempt} (hs : e.state = .transmit) (ha : e.attempt = some a) :
    e.edgePlace = .sending a.sent := by
  simp [Engine.edgePlace, hs, ha]

theorem edgePlace_await {e : Engine} {a : Attempt} (hs : e.state = .await) (ha : e.attempt = some a) :
    e.edgePlace = if a.windowOver = true then .elsewhere else .window := by
  simp [Engine.edgePlace, hs, ha]

theorem edgePlace_elsewhere {e : Engine} (h : e.attempt = none ∨ (e.state ≠ .transmit ∧ e.state ≠ .await)) :
    e.edgePlace = .elsewhere := by
  unfold Engine.edgePlace
  split
  · next ht ha => simp_all
  · next ht ha => simp_all
  · rfl

end Sys2Proof.Machine
end

