-- ==== Sys2Proof/Laws/Legal.lean ====
section
/-! SUPPORT. What a legal engine gives, one fact at a time, and the completion of a received character. -/

namespace Sys2Proof.Machine

namespace Engine.Legal

variable {e : Engine}

theorem of_off (h : e.Legal) (hs : e.state = .off) : e.HoldsNothing ∧ e.disabling = false := h.1 hs

theorem of_disabling (h : e.Legal) (hs : e.disabling = true) : e.HoldsNothing ∧ e.state = .transmit := h.2.1 hs

theorem tx_iff (h : e.Legal) : e.tx.isSome = true ↔ e.state = .transmit := h.2.2.1

theorem attempt_iff (h : e.Legal) : e.attempt.isSome = true ↔ e.inFlight = true ∧ e.disabling = false := h.2.2.2.1

theorem of_noSlot (h : e.Legal) (hs : e.slot = none) :
    e.attempt = none ∧ e.held = none ∧ e.snapshot = none ∧ e.request = none ∧ e.failed = none := h.2.2.2.2.1 hs

theorem of_next (h : e.Legal) (hs : e.next.isSome = true) : e.state = .wait ∧ e.slot = none ∧ e.notice.isSome = true :=
  h.2.2.2.2.2.1 hs

theorem next_none (h : e.Legal) (hs : e.slot ≠ none) : e.next = none := by
  cases hn : e.next with
  | none => rfl
  | some r => exact absurd (h.of_next (by simp [hn])).2.1 hs

theorem of_request (h : e.Legal) (hs : e.request.isSome = true) : e.slot.any (·.isOpen) = true := h.2.2.2.2.2.2.1 hs

theorem of_open (h : e.Legal) (hs : e.slot.any (·.isOpen) = true) (hr : e.request = none) :
    e.attempt = none ∧ e.held = none ∧ e.failed = none := h.2.2.2.2.2.2.2.1 hs hr

theorem of_wait (h : e.Legal) (hs : e.state = .wait) :
    e.held = none ∧ e.request = none ∧ e.failed = none ∧ (e.slot.isSome = true → e.slot.any (·.isOpen) = true) :=
  h.2.2.2.2.2.2.2.2.1 hs

theorem of_gap (h : e.Legal) (hs : e.state = .gap) (hf : e.failed = none) :
    e.held = none ∧ e.request = none ∧ (e.slot.isSome = true → e.slot.any (·.isOpen) = true) :=
  h.2.2.2.2.2.2.2.2.2.1 hs hf

theorem of_failed (h : e.Legal) {o : Outcome} (hf : e.failed = some o) : e.state = .gap ∧ o.Failed :=
  h.2.2.2.2.2.2.2.2.2.2.1 o hf

/-- The attempt in flight is of the exchange under way. -/
theorem exchange (h : e.Legal) {a : Attempt} (ha : e.attempt = some a) :
    ∃ x, e.exchange = some x ∧ a.station = x.station ∧ a.kind = x.kind ∧ a.replyWindow = x.replyWindow
      ∧ a.expected = x.expected := h.2.2.2.2.2.2.2.2.2.2.2.1 a ha

/-- Past TRANSMIT the attempt awaits a reply. -/
theorem ne_broadcast (h : e.Legal) {a : Attempt} (ha : e.attempt = some a) (hs : e.state ≠ .transmit) :
    a.kind ≠ kindBroadcast := h.2.2.2.2.2.2.2.2.2.2.2.2.1 a ha hs

theorem of_receive (h : e.Legal) {a : Attempt} (ha : e.attempt = some a) (hs : e.state = .receive) :
    a.reply.isSome = true ∧ a.arrival.isSome = true := h.2.2.2.2.2.2.2.2.2.2.2.2.2.1 a ha hs

theorem of_quiet (h : e.Legal) {a : Attempt} (ha : e.attempt = some a) (hs : e.state = .quiet) :
    ∃ o, a.judged = some o ∧ o.Failed := h.2.2.2.2.2.2.2.2.2.2.2.2.2.2.1 a ha hs

theorem slot_attempts (h : e.Legal) {c : Slot} (hc : e.slot = some c) : c.attempts ≤ c.entry.retryLimit.toNat + 1 :=
  h.2.2.2.2.2.2.2.2.2.2.2.2.2.2.2.1 c hc

theorem request_attempts (h : e.Legal) {q : Request} (hq : e.request = some q) : q.attempts ≤ q.desc.retryLimit.toNat + 1 :=
  h.2.2.2.2.2.2.2.2.2.2.2.2.2.2.2.2.1 q hq

/-- An OPEN slot has made no attempt of its own and holds no snapshot (R63). -/
theorem of_openSlot (h : e.Legal) {c : Slot} (hc : e.slot = some c) (ho : c.isOpen = true) :
    c.attempts = 0 ∧ c.resync = false ∧ c.arrival = 0 ∧ c.afterBoundary = false ∧ e.snapshot = none :=
  h.2.2.2.2.2.2.2.2.2.2.2.2.2.2.2.2.2.1 c hc ho

/-- A BROADCAST holds no buffer (R66, R135). -/
theorem held_broadcast (h : e.Legal) {x : Exchange} (hx : e.exchange = some x) (hk : x.kind = kindBroadcast) : e.held = none :=
  h.2.2.2.2.2.2.2.2.2.2.2.2.2.2.2.2.2.2.1 x hx hk

theorem of_transmit (h : e.Legal) {a : Attempt} (ha : e.attempt = some a) (hs : e.state = .transmit) : a.reply = none :=
  h.2.2.2.2.2.2.2.2.2.2.2.2.2.2.2.2.2.2.2.1 a ha hs

/-- An OFF line has no character in reception (R3). -/
theorem no_char (h : e.Legal) (hs : e.state = .off) : e.rx.char = none :=
  h.2.2.2.2.2.2.2.2.2.2.2.2.2.2.2.2.2.2.2.2 hs

/-- The result of an OPEN slot is that of R63: OK, its cycle, its lateness and the started-late flag, and every other field 0. -/
theorem open_result (h : e.Legal) {c : Slot} (hc : e.slot = some c) (ho : c.isOpen = true) :
    c.result .ok e.generation = { SlotResult.none with
      outcome := .ok, startedLate := c.startedLate, cycle := c.cycle, lateness := c.lateness } := by
  obtain ⟨h1, h2, h3, h4, h5⟩ := h.of_openSlot hc ho
  simp [Slot.result, Engine.generation, h1, h2, h3, h4, h5, SlotResult.none]

end Engine.Legal

/-! ## Characters -/

/-- A character whose reception began at a START_EDGE is completed by the receiver and handled by the engine's state (R3, R78). -/
theorem received_begun {s : State} {l : Line} {p : RxProgress} (c : RxChar) (h : (s.engine l).rx.char = some p) :
    completeCharacter l c (startEdge l s) = handleCharacter l p c
      (s.setEngine l { s.engine l with rx := { prev := some (!c.framing), char := none }, idle := 0 }) := by
  simp [startEdge, h, completeCharacter]

/-- A character with no START_EDGE before it begins and completes at the same moment (log 9). -/
theorem received_whole {s : State} {l : Line} (c : RxChar) (h : (s.engine l).rx.char = none)
    (hp : (s.engine l).rx.prev ≠ some false) (ho : (s.engine l).state ≠ .off) :
    completeCharacter l c (startEdge l s) = handleCharacter l
      { place := (s.engine l).edgePlace, capture := s.timer.capture, count := 0, votes := [], bits := [] } c
      (s.setEngine l { s.engine l with rx := { prev := some (!c.framing), char := none }, idle := 0 }) := by
  simp [startEdge, h, hp, ho, completeCharacter]

end Sys2Proof.Machine
end

