-- ==== Sys2Proof/WellFormed.lean ====
section
/-! DEFINITION. Which commands stand for an access of their own row: a BAD_COMMAND whose code names no command, and a
REGISTER_WRITE at an offset whose write has no other row. Every other command is well formed with any operands. Commands that
are not well formed still have a meaning: they are the access they spell (log 16). -/

namespace Sys2Proof

/-- A command that is the access its own row describes. -/
def Instr.wellFormed (i : Instr) : Bool :=
  match i with
  | .badCommand code => (commandOfCode code).isNone
  | .registerWrite offset v => (ownRowOfWrite offset v).isNone
  | _ => true

end Sys2Proof
end

