-- ==== Sys2Proof/Tests/Slice0.lean ====
section
/-! SUPPORT. Tests: ill-formed commands are refused; the codes and offsets that spell commands; single steps whose expected results are the
spec's own examples and tables (the section is named at each); and, for every statement with hypotheses, concrete values that meet them. -/

namespace Sys2Proof.Tests

open Sys2Proof.Machine

-- One test after another: side by side, their kernel evaluations hold a thread each, and there are many.
set_option Elab.async false

/-! ## Small states -/

/-- The state a command leaves. -/
def after (c : Instr) (s : State) : State :=
  match exec c s with
  | .next t => t
  | .fault _ => s
  | .refused _ => s

/-- The part after reset with a timer, P being 576 and W 4 as in the examples of the spec. -/
def withTimer (f : Timer → Timer) : State := { State.reset with timer := f { Timer.reset with period := 576 } }

/-- A part that runs in mode FREE, at a value of a cycle. -/
def running (cycle value : Half) : State := withTimer fun t => { t with state := .running, cycleCount := cycle, value := value }

/-- A part that runs in mode FOLLOW, in a sync state. -/
def following (sync : SyncState) (cycle value : Half) : State :=
  withTimer fun t =>
    { t with mode := .follow, state := .running, sync := sync, cycleCount := cycle, value := value, prevSync := some true }

/-- A list of entries, the rest of its records zero. -/
def listOf (es : List Entry) : SlotList :=
  { entries := Vector.ofFn fun i => es.getD i.val Entry.zero, count := BitVec.ofNat 8 es.length }

/-- An entry of a list, with its reply window and reservation. -/
def entry (offset : Half) (station kind divider phase : Byte) : Entry :=
  { Entry.zero with
    offset := offset, station := station, kind := kind, replyLength := 4, mailbox := 5, reservation := 40,
    replyWindow := 40, retryLimit := 2, divider := divider, phase := phase }

/-- Line A's list of the example in section 3.2. -/
def dueList : SlotList :=
  listOf [entry 10 30 kindExchange 0 0, entry 100 17 kindRead 3 2, entry 160 17 kindRead 0 0, entry 400 0 kindOpen 0 0,
    entry 520 18 kindStatus 1 1]

/-- A store that runs the list of section 3.2 on line A. -/
def store : Schedule := { Schedule.reset with bank0 := ⟨dueList, SlotList.reset⟩ }

/-- A notice of a cycle. -/
def notice (cycle : Half) : Notice := { cycle := cycle, bank := false, changeovers := 0 }

/-- A host with arguments for the next command. -/
def withArgs (s : State) (arg0 arg1 : Byte) : State := { s with host := { s.host with arg0 := arg0, arg1 := arg1 } }

/-- A byte read at a window address, and the state after it. -/
def peek (address : Half) (s : State) : Option Byte :=
  (after .winPeekRead { s with host := { s.host with ptr := address } }).host.data

/-! ## Well-formedness and the codes and offsets that spell commands -/

theorem test_wellFormed_badCommand : (Instr.badCommand 0x01).wellFormed = false ∧ (Instr.badCommand 0x04).wellFormed = true := by
  decide

theorem test_wellFormed_registerWrite :
    (Instr.registerWrite 0x05 0x01).wellFormed = false ∧ (Instr.registerWrite 0x27 0).wellFormed = false
    ∧ (Instr.registerWrite 0x3F 0).wellFormed = false ∧ (Instr.registerWrite 0x06 0).wellFormed = true := by decide

theorem test_wellFormed_others : Instr.tick.wellFormed = true ∧ (Instr.cytModeWrite 0xFF).wellFormed = true := by decide

/-- Section 11.10, command codes. -/
theorem test_commandOfCode :
    commandOfCode 0x01 = some .cycleStart ∧ commandOfCode 0x12 = some .copyActive ∧ commandOfCode 0x21 = some .lineDisable
    ∧ commandOfCode 0x2A = some .clearCounters ∧ commandOfCode 0x32 = some .unmarkAll ∧ commandOfCode 0x42 = some .flush
    ∧ commandOfCode 0x51 = some .cancel ∧ commandOfCode 0x60 = some .pop ∧ commandOfCode 0x7F = some .softReset
    ∧ commandOfCode 0x00 = none ∧ commandOfCode 0x80 = none := by decide

/-- Section 11.1, the offsets of the writes that have rows of their own. -/
theorem test_ownRowOfWrite :
    ownRowOfWrite 0x13 7 = some (.cytPeriodHighWrite 7) ∧ ownRowOfWrite 0x25 7 = some (.lineSettingWrite .a .probeInterval 7)
    ∧ ownRowOfWrite 0x3B 7 = some (.strayCounterWrite .b 7) ∧ ownRowOfWrite 0x3C 7 = none ∧ ownRowOfWrite 0x28 7 = none := by
  decide

theorem test_noWordSpellsACommand : decodeTableWord 16 0x0101 = none ∧ State.reset.withFetchWord 16 0x0101 = State.reset :=
  ⟨rfl, rfl⟩

/-! ## The polled line protocol -/

/-- Section 1.3, check values for software. -/
theorem test_crc :
    crc [0x31, 0x32, 0x33, 0x34, 0x35, 0x36, 0x37, 0x38, 0x39] = 0x29B1 ∧ crc [0x11, 0x01, 0x00] = 0x8BFE := by decide +kernel

/-- Section 1.3, the complete READ request to station 17. -/
theorem test_requestFrame : requestFrame 17 kindRead false [] = [0x11, 0x01, 0x00, 0x8B, 0xFE] := by decide

/-- Section 1.10: a line of the example settings takes 160 reference periods for a bit, 10 for a sample. -/
theorem test_bitTime :
    ({ Engine.reset with divisor := 9 } : Engine).bitTime = 160 ∧ ({ Engine.reset with divisor := 9 } : Engine).samplePeriod = 10
    ∧ Engine.reset.bitTime = 1920 := by decide

/-- Section 2.1: prescaler 19 makes a tick of 320 reference periods. -/
theorem test_tickPeriods : ({ Timer.reset with prescaler := 19 } : Timer).tickPeriods = 320 := rfl

/-! ## Cycle Timer -/

/-- Section 2.5, the stop of a free-running timer: the value reaches 576 in STOPPING, in cycle 7. -/
theorem test_periodEnd_stops :
    let t := after .periodEnd (withTimer fun t => { t with state := .stopping, cycleCount := 7, value := 575 })
    t.timer.state = .stopped ∧ t.timer.value = 0 ∧ t.timer.cycleCount = 7 := by decide +kernel

/-- Section 2.5: CYCLE_START then begins cycle 8. -/
theorem test_cycleStart_begins :
    let t := after .cycleStart (withTimer fun t => { t with cycleCount := 7 })
    t.timer.state = .running ∧ t.timer.value = 0 ∧ t.timer.cycleCount = 8 ∧ t.host.status = .accepted := by decide +kernel

/-- Section 2.5: CYCLE_STOP of a running timer. -/
theorem test_cycleStop_running :
    let t := after .cycleStop (running 7 200)
    t.timer.state = .stopping ∧ t.timer.value = 200 := by decide +kernel

/-- Section 2.6: the first edge after SEEKING, and the edge at value 300. -/
theorem test_syncFallingEdge :
    (let t := after .syncFallingEdge (following .seeking 0 0);
      t.timer.sync = .locked ∧ t.timer.value = 0 ∧ t.timer.cycleCount = 1 ∧ t.timer.early = 0)
    ∧ (let t := after .syncFallingEdge (following .locked 1 300);
      t.timer.sync = .locked ∧ t.timer.value = 300 ∧ t.timer.cycleCount = 1 ∧ t.timer.early = 1) := by decide +kernel

/-- Section 2.6: the edge at value 573 begins cycle 2; the edge at value 120 of HOLDOVER begins cycle 5 with SYNC_REGAINED. -/
theorem test_syncFallingEdge_begins :
    (let t := after .syncFallingEdge (following .locked 1 573);
      t.timer.value = 0 ∧ t.timer.cycleCount = 2 ∧ t.events.entries = [])
    ∧ (let t := after .syncFallingEdge (following .holdover 4 120);
      t.timer.sync = .locked ∧ t.timer.cycleCount = 5 ∧ t.events.entries = [{ kind := .syncRegained, cycle := 5 }]) := by
  decide +kernel

/-- Section 2.6: the value reaches 580 with no edge. -/
theorem test_syncWindowExpiry :
    let t := after .syncWindowExpiry (following .locked 2 579)
    t.timer.sync = .holdover ∧ t.timer.value = 0 ∧ t.timer.cycleCount = 3
    ∧ t.events.entries = [{ kind := .syncLost, cycle := 3 }] := by decide +kernel

theorem test_tick : (after .tick (running 7 200)).timer.value = 201 ∧ (after .tick (following .locked 2 575)).timer.value = 576 := by
  decide +kernel

/-! ## Schedule Store -/

/-- Section 3.2: due entries and budget ends of cycles 10 and 11. -/
theorem test_entryRead :
    ((store.entryRead 576 .a (notice 10) 0).map fun r => (r.index.val, r.budgetEnd)) = some (0, 100)
    ∧ ((store.entryRead 576 .a (notice 10) 3).map fun r => (r.index.val, r.budgetEnd)) = some (3, 576)
    ∧ ((store.entryRead 576 .a (notice 11) 1).map fun r => (r.index.val, r.budgetEnd)) = some (2, 400)
    ∧ ((store.entryRead 576 .a (notice 11) 4).map fun r => (r.index.val, r.budgetEnd)) = some (4, 576)
    ∧ store.entryRead 576 .a (notice 10) 4 = none := by decide +kernel

/-- A pending bank with four entries on line A, the last at an offset. -/
def pendingFour (offset : Half) : Bank :=
  ⟨listOf [entry 10 30 kindExchange 0 0, entry 100 17 kindRead 3 2, entry 160 17 kindRead 0 0, entry offset 21 kindRead 0 0],
    SlotList.reset⟩

/-- Section 3.3, a refused changeover: offset 600 in A/3. The corrected offset 500 passes. -/
theorem test_changeoverCheckEnd :
    (let t := after .changeoverCheckEnd { running 7 200 with
        schedule := { store with bank1 := pendingFour 600, changeover := .checking } };
      t.schedule.changeover = .none
      ∧ t.events.entries = [{ kind := .changeoverRefused, line := some .a, station := 21, code := 2, cycle := 7, entryIndex := 3 }])
    ∧ (after .changeoverCheckEnd { running 7 200 with
        schedule := { store with bank1 := pendingFour 500, changeover := .checking } }).schedule.changeover = .armed := by
  decide +kernel

/-- Section 3.6, the swap at the begin of cycle 41. -/
theorem test_swap :
    let t := after .tick { running 40 575 with schedule := { store with changeover := .armed, changeovers := 5 } }
    t.schedule.active = true ∧ t.schedule.changeovers = 6 ∧ t.schedule.changeover = .none
    ∧ t.events.entries = [{ kind := .changeoverDone, cycle := 41, code := 1 }] := by decide +kernel

/-- Section 3.6, ABORT_CHANGEOVER after the swap; in ARMED it is taken. -/
theorem test_abortChangeover :
    (after .abortChangeover { State.reset with schedule := { store with lastSwapped := true } }).host.status = .tooLate
    ∧ (after .abortChangeover { State.reset with schedule := { store with changeover := .armed } }).schedule.changeover = .none := by
  decide +kernel

/-! ## Line engines -/

/-- Line A of the examples: waiting in a cycle with a kept entry. -/
def lineA : Engine := { Engine.reset with divisor := 9, state := .wait, notice := some (notice 30), walk := 2 }

/-- The entries of the example in section 4.6: A/2 and A/3. -/
def slotTwo : ReadEntry := { index := 2, entry := entry 160 21 kindRead 0 0, budgetEnd := 250 }
def slotThree : ReadEntry := { index := 3, entry := entry 250 22 kindRead 0 0, budgetEnd := 320 }

/-- Station A:21 ONLINE, and the engine of line A, at a value of cycle 30. -/
def lineState (value : Half) (e : Engine) : State :=
  let s := running 30 value
  { s with lines := ⟨e, Engine.reset⟩, stations := (s.setStation .a 20 { Station.reset with health := .online }).stations }

/-- Section 4.6: A/2 begins at 160, lateness 0, attempts 1, B0 held. -/
theorem test_slotBegin_sends :
    let t := after (.slotBegin .a) (lineState 160 { lineA with next := some slotTwo })
    (t.engine .a).state = .transmit ∧ (t.engine .a).held = some 0
    ∧ ((t.engine .a).slot.map fun c => (c.lateness, c.startedLate, c.attempts)) = some (0, false, 1)
    ∧ ((t.engine .a).attempt.map (·.frame)) = some (requestFrame 21 kindRead false []) := by decide +kernel

/-- Section 4.6: A/3 at value 298 is squeezed, started late, lateness 48. -/
theorem test_slotBegin_squeezed :
    let t := after (.slotBegin .a) (lineState 298 { lineA with next := some slotThree })
    (t.engine .a).state = .wait
    ∧ ((t.schedule.results.a[3]).outcome, (t.schedule.results.a[3]).lateness, (t.schedule.results.a[3]).startedLate)
      = (.squeezed, 48, true) := by decide +kernel

/-- A slot of line A in progress, and an attempt of it. -/
def slotAt (attempts : Nat) : Slot := slotOf (running 30 160) (notice 30) slotTwo false attempts
def attemptAt (sent : Nat) : Attempt :=
  { station := 21, kind := kindRead, seqBit := false, expected := 4, replyWindow := 40, frame := requestFrame 21 kindRead false [],
    sent := sent, echo := none, windowOver := false, arrival := none, reply := none, judged := none }

/-- Line A within the attempt of slot A/2, in a state. -/
def inAttempt (state : EngineState) (a : Attempt) : Engine :=
  { lineA with
    state := state, walk := 3, slot := some (slotAt 1), attempt := some a, held := some 0
    tx := if state = .transmit then some { byte := 0x15, head := true, clock := 0 } else none }

/-- Section 4.6: DE released after the fifth character; no head in the window, TIMEOUT, counted for A:21. -/
theorem test_characterTransmitted_last :
    ((after (.characterTransmitted .a) (lineState 187 (inAttempt .transmit (attemptAt 4)))).engine .a).state = .await := by
  decide +kernel

theorem test_replyWindowExpiry :
    let t := after (.replyWindowExpiry .a) (lineState 207 (inAttempt .await (attemptAt 5)))
    (t.engine .a).state = .gap ∧ (t.engine .a).held = some 0 ∧ (t.station .a 20).timeoutCount = 1 := by decide +kernel

/-- Line A in the frame gap after a failed first attempt of slot A/2. -/
def afterTimeout : Engine :=
  { lineA with state := .gap, walk := 3, slot := some (slotAt 1), held := some 0, failed := some .timeout }

/-- Section 4.6: at 209 the remaining 41 allow a retry; with 39 remaining the slot would have ended TIMEOUT. -/
theorem test_frameGapEnd :
    (let t := after (.frameGapEnd .a) (lineState 209 afterTimeout);
      (t.engine .a).state = .transmit ∧ (t.engine .a).held = some 0 ∧ (t.engine .a).attempts = 2)
    ∧ (let t := after (.frameGapEnd .a) (lineState 211 afterTimeout);
      (t.engine .a).slot = none ∧ (t.schedule.results.a[2]).outcome = .timeout ∧ (t.station .a 20).health = .suspect) := by
  decide +kernel

/-- Section 4.6: the reply head of A:21 has its start edge at 247, in the window. -/
theorem test_receivedCharacter_head :
    let t := after (.receivedCharacter .a 0x55 true false) (lineState 247 (inAttempt .await (attemptAt 5)))
    (t.engine .a).state = .receive ∧ ((t.engine .a).slot.map (·.arrival)) = some 247 := by decide +kernel

/-- Section 1.10: kind 0x21, READ matches, status nibble 2. -/
theorem test_judgeKind :
    judgeNext (attemptAt 5) { stage := .kind, seqBit := false, refuse := false, nibble := 0, length := 0, got := 0, crc := 0, checkHigh := 0 }
      { byte := 0x21, head := false, framing := false }
    = .more { stage := .length, seqBit := false, refuse := false, nibble := 2, length := 0, got := 0, crc := crcByte 0 0x21,
              checkHigh := 0 } none := by decide +kernel

/-! ## Station Table -/

/-- A report of A/7 in the example of section 5.9. -/
def reportOf (kind : Byte) (o : Outcome) (nibble : Option (BitVec 4)) (cycle : Half) : Report :=
  { kind := kind, outcome := o, nibble := nibble, cycle := cycle, index := 7, tag := 0, attempts := 1 }

/-- A:30 at the start of cycle 102: SUSPECT with fail count 2, S 1. -/
def suspect : Station :=
  { Station.reset with health := .suspect, failCount := 2, s := true, failureCount := 2, timeoutCount := 5, corruptCount := 1 }

/-- Section 5.9, cycle 102: OFFLINE with the countdown loaded with 3. -/
theorem test_report_offline :
    let r := suspect.report (reportOf kindExchange .timeout none 102) 3 3
    r.health = .offline ∧ r.failCount = 3 ∧ r.probe = 3 ∧ r.failureCount = 3 ∧ r.s = true := by decide

/-- Section 5.9, cycle 105: the probe's RESYNC is answered OK with status 4. -/
theorem test_report_resynced :
    let old : Station := { suspect with health := .offline, failCount := 3, probe := 3 }
    let r := old.report (reportOf kindResync .ok (some 4) 105) 3 3
    r.health = .online ∧ r.failCount = 0 ∧ r.s = false ∧ r.probe = 3 ∧ r.nibble = 4 ∧ r.okCount = 1
    ∧ (stationEvents .a 30 ⟨true, true, true, true⟩ old r (reportOf kindResync .ok (some 4) 105)).map (fun e => (e.kind, e.code))
      = [(.statusChange, 0x04), (.stationOnline, 0x31)] := by decide

/-- Section 5.9, cycles 104 and 105: the countdown falls to 1; then it is reloaded with 3 and a RESYNC is sent. -/
theorem test_startRead :
    ({ suspect with health := .offline, probe := 2 } : Station).startRead 3 = ({ suspect with health := .offline, probe := 1 }, .skip)
    ∧ ({ suspect with health := .offline, probe := 1 } : Station).startRead 3
      = ({ suspect with health := .offline, probe := 3 }, .sendResync) := by decide

theorem test_park_unpark :
    let s := withArgs (lineState 0 lineA) 0 21
    ((after .park s).station .a 20).health = .parked ∧ (after .unpark s).host.status = .wrongState
    ∧ ((after .unpark (after .park s)).station .a 20).health = .unknown := by decide +kernel

/-! ## Buffers and mailboxes -/

/-- Section 6.6, M5 through the first three publications and the claim between them. -/
theorem test_publish :
    let m0 := Mailbox.reset
    let m1 := m0.publish 0
    let m2 := m1.1.publish 1
    let m3 := ({ m2.1 with state := .claimed, fresh := false } : Mailbox).publish 2
    let m4 := m3.1.publish 3
    m1.2 = none ∧ m2.2 = some 0 ∧ m3.2 = none ∧ m4.2 = some 2
    ∧ m4.1 = { state := .claimedNext, current := some 1, next := some 3, fresh := false, overwrites := 2, publishes := 4 } := by
  decide

/-- Section 6.6, M5 after cycle 4. -/
def claimedFive : State :=
  withArgs { State.reset with
    mailboxes := setAt State.reset.mailboxes 5
      { state := .claimedNext, current := some 1, next := some 3, fresh := false, overwrites := 2, publishes := 4 }
    pool := { Pool.reset with free := [4, 0, 2] } } 5 0

/-- Section 6.6: RELEASE of M5 makes B3 current and returns B1. -/
theorem test_release :
    let t := after .release claimedFive
    t.mailboxes[5] = { state := .full, current := some 3, next := none, fresh := true, overwrites := 2, publishes := 4 }
    ∧ t.pool.free = [4, 0, 2, 1] := by decide +kernel

/-- Section 6.6: CLAIM and then FLUSH of M5. -/
theorem test_claim_flush :
    let t := after .flush (after .claim (after .release claimedFive))
    t.mailboxes[5] = { state := .empty, current := none, next := none, fresh := false, overwrites := 0, publishes := 4 }
    ∧ t.pool.free = [4, 0, 2, 1, 3] := by decide +kernel

/-- Section 6.7: a miss of line B's entry 1 for station 4. -/
theorem test_takeBuffer_miss :
    let t := takeBuffer .b { station := 4, cycle := 9, index := 1, tag := 0 } { State.reset with pool := { Pool.reset with free := [] } }
    t.pool.misses = 1 ∧ t.pool.episode = true
    ∧ t.events.entries = [{ kind := .poolEmpty, line := some .b, station := 4, cycle := 9, entryIndex := 1 }] := by decide +kernel

/-! ## Output images -/

/-- Images 20 and 5 of the example in section 7.6. -/
def imageState : State :=
  { running 50 575 with
    images :=
      { images := setAt (setAt ImageStore.reset.images 20
          { staged := Vector.replicate 32 9, live := Vector.replicate 32 1, generation := 7 }) 5
          { staged := Vector.replicate 32 0, live := Vector.replicate 32 0, generation := 255 }
        marked := setAt ImageStore.reset.marked 20 true } }

/-- Section 7.6: the begin of cycle 51 publishes I20, generation 8. -/
theorem test_tick_publishes :
    let t := after .tick imageState
    t.images.images[20].generation = 8 ∧ t.images.images[20].live[5] = 9 ∧ t.images.marked[20] = false
    ∧ t.images.images[5].generation = 255 := by decide +kernel

/-- Section 7.6: PUBLISH_IMAGE 5 takes the generation from 255 to 0. -/
theorem test_publishImage : (after .publishImage (withArgs imageState 5 0)).images.images[5].generation = 0 := by decide +kernel

/-! ## Acyclic requests -/

/-- A descriptor of the example in section 8.7. -/
def request (tag station kind reqLen repLen : Byte) (reservation window : Half) (retries : Byte) : Descriptor :=
  { Descriptor.zero with
    tag := tag, station := station, kind := kind, requestLength := reqLen, replyLength := repLen, retryLimit := retries,
    reservation := reservation, replyWindow := window }

def tag7 : Descriptor := request 7 40 9 12 12 200 60 1
def tag8 : Descriptor := request 8 12 kindExchange 4 4 30 40 0
def tag9 : Descriptor := request 9 17 kindStatus 0 8 40 40 1

/-- The OPEN slot A/3 of a cycle, with a budget end. -/
def openSlot (cycle budgetEnd : Half) : Slot :=
  slotOf (running cycle 400) (notice cycle) { index := 3, entry := entry 400 0 kindOpen 0 0, budgetEnd := budgetEnd } false 0

/-- Line A waiting in A/3 with requests queued; A:17 ONLINE with nibble 2, A:12 UNKNOWN. -/
def openState (cycle value budgetEnd : Half) (queue : List Descriptor) : State :=
  let s := running cycle value
  { s with
    lines := ⟨{ lineA with notice := some (notice cycle), walk := 4, slot := some (openSlot cycle budgetEnd) }, Engine.reset⟩
    stations := (s.setStation .a 16 { Station.reset with health := .online, nibble := 2 }).stations
    acyclic := ⟨{ staging := tag7, queue := queue }, AcyclicStore.reset⟩
    pool := { Pool.reset with free := [6, 7] } }

/-- Section 8.7, cycle 10: the head needs 200 of 176 ticks, and nothing starts. -/
theorem test_acyclicStart_waits :
    let t := after (.acyclicStart .a) (openState 10 400 576 [tag7, tag8, tag9])
    (t.acyclic.get .a).queue = [tag7, tag8, tag9] ∧ (t.engine .a).request = none := by decide +kernel

/-- Section 8.7, cycle 11: tag 8 completes NOT_READY. -/
theorem test_acyclicStart_notReady :
    let t := after (.acyclicStart .a) (openState 11 400 520 [tag8, tag9])
    (t.acyclic.get .a).queue = [tag9] ∧ t.events.reserved.a = false
    ∧ t.events.entries = [{ kind := .acyclicDone, line := some .a, station := 12, code := 13, cycle := 11, tag := 8, entryIndex := 3 }] := by
  decide +kernel

/-- Section 8.7, cycle 11: tag 9 starts, B6 taken, the reservation held. -/
theorem test_acyclicStart_starts :
    let t := after (.acyclicStart .a) (openState 11 400 520 [tag9])
    (t.acyclic.get .a).queue = [] ∧ t.events.reserved.a = true ∧ (t.engine .a).held = some 6
    ∧ (t.engine .a).state = .transmit ∧ ((t.engine .a).attempt.map (·.frame)) = some (requestFrame 17 kindStatus false []) := by
  decide +kernel

/-- Section 8.7: CANCEL of tag 7 of line A; a fourth request fills the queue, a fifth is refused. -/
theorem test_cancel_post :
    ((after .cancel (withArgs (openState 11 100 520 [tag7, tag8, tag9]) 0 7)).acyclic.get .a).queue = [tag8, tag9]
    ∧ (after .cancel (withArgs (openState 11 100 520 [tag8, tag9]) 0 7)).host.status = .notFound
    ∧ ((after .post (withArgs (openState 11 100 520 [tag8, tag9, tag9]) 0 0)).acyclic.get .a).queue = [tag8, tag9, tag9, tag7]
    ∧ (after .post (withArgs (openState 11 100 520 [tag8, tag9, tag9, tag9]) 0 0)).host.status = .full := by decide +kernel

/-! ## Event Queue -/

/-- A queue of the example in section 9.8: a head with B6, 30 more entries, line B's reservation, two drops. -/
def fullQueue : EventQueue :=
  { entries := { kind := .acyclicDone, line := some .b, tag := 3, buffer := some 6 }
      :: List.replicate 30 { kind := .statusChange, line := some .a }
    reserved := ⟨false, true⟩, drops := 2 }

/-- Section 9.8: with 30 entries and two reservations an append is dropped and counted. -/
theorem test_append_full :
    let q : EventQueue := { fullQueue with entries := fullQueue.entries.tail, reserved := ⟨true, true⟩, drops := 0 }
    q.load = 32 ∧ (q.append { kind := .syncLost, cycle := 1 }).drops = 1 ∧ (q.append { kind := .syncLost, cycle := 1 }).entries = q.entries := by
  decide +kernel

/-- Section 9.8, the first POP: B6 is returned and OVERFLOW with code 2 is appended; the sum stays 32. -/
theorem test_pop :
    let t := after .pop { State.reset with events := fullQueue, pool := { Pool.reset with free := [7] } }
    t.events.drops = 0 ∧ t.events.load = 32 ∧ t.pool.free = [7, 6]
    ∧ t.events.entries.getLast? = some { kind := .overflow, code := 2 } := by decide +kernel

/-! ## Host Port -/

/-- Section 10.2: byte 0 of A:21's record latches it; later bytes come from the copy though the record has changed. -/
theorem test_winPeekRead_latch :
    let s := after .winDataRead { lineState 0 lineA with host := { HostPort.reset with ptr := 0x1150 } }
    s.host.ptr = 0x1151 ∧ s.host.data = some 1
    ∧ peek 0x1152 (s.setStation .a 20 { Station.reset with health := .offline, s := true }) = some 0
    ∧ peek 0x1150 (s.setStation .a 20 { Station.reset with health := .offline, s := true }) = some 3 := by decide +kernel

/-- Section 11.2: an address between the regions reads 0 and sets WIN_ERROR. -/
theorem test_winPeekRead_unmapped :
    let t := after .winPeekRead { State.reset with host := { HostPort.reset with ptr := 0x0804 } }
    t.host.data = some 0 ∧ t.host.winError = true := by decide +kernel

/-- Section 10.3: HOST_STATUS is cleared by ones; section 9.6: a sticky flag shows as ERR and drives the interrupt line. -/
theorem test_hostStatusWrite :
    let s := { State.reset with host := { HostPort.reset with winError := true, cmdRefused := true, irqEnable := 4 } }
    s.irqDriven = true ∧ directRead s 0x04 = 0x04 ∧ directRead s 0x02 = 0x09
    ∧ directRead (after (.hostStatusWrite 0x01) s) 0x02 = 0x08 := by decide +kernel

/-- Section 10.4: a code of no command. -/
theorem test_badCommand :
    let t := after (.badCommand 0x04) State.reset
    t.host.status = .badCommand ∧ t.host.cmd = 0x04 ∧ t.host.cmdRefused = true := by decide +kernel

/-- Section 10.5: a soft reset reads ACCEPTED in CMD_STATUS, 0x7F in CMD and SOFT in HOST_STATUS. -/
theorem test_softReset :
    let t := after .softReset (running 7 200)
    t.timer = Timer.reset ∧ directRead t 0x05 = 0x7F ∧ directRead t 0x08 = 1 ∧ directRead t 0x02 = 0x80 := by decide +kernel

/-! ## Values that meet the hypotheses of the statements, clause by clause

The theorem of a statement is named after it. -/

/-- A part held in reset. -/
def heldPart : State := after .pinReset State.reset

theorem test_hyps_StepRunsTheFrontCommand : State.reset.pending = [] ∧ heldPart.inReset = true := by decide +kernel

theorem test_hyps_CommandsLeaveTheQueueAlone : ∃ t, exec .pinReset State.reset = .next t ∧ t.inReset ≠ State.reset.inReset :=
  ⟨heldPart, rfl, by decide +kernel⟩

theorem test_hyps_NothingActsWhileHeldInReset : heldPart.inReset = true ∧ ¬ isPinRow .tick := by
  refine ⟨rfl, ?_⟩; simp [isPinRow]

theorem test_hyps_RegistersReadTheirResetValues :
    (∃ t, exec .softReset State.reset = .next t)
    ∧ ∀ o : BitVec 6, o = 0x00 ∨ o = 0x3F → o ≠ 0x02 ∧ o ≠ 0x05 ∧ o ≠ 0x08 :=
  ⟨⟨_, rfl⟩, by decide⟩

theorem test_hyps_ResetRowsTakeTheResetState :
    State.reset.inReset = false ∧ (∃ t, exec .softReset State.reset = .next t) ∧ ∃ t, exec .powerUp heldPart = .next t :=
  ⟨rfl, ⟨_, rfl⟩, ⟨_, rfl⟩⟩

theorem test_hyps_CycleCommandsStartAndStop :
    State.reset.inReset = false ∧ (State.reset.timer.state = .stopped ∧ State.reset.timer.mode = .free)
    ∧ (let s := withTimer fun t => { t with mode := .follow }; s.timer.state = .stopped ∧ s.timer.mode = .follow)
    ∧ (withTimer fun t => { t with state := .stopping }).timer.state = .stopping
    ∧ (running 1 0).timer.state = .running ∧ (withTimer fun t => { t with state := .single }).timer.state = .single
    ∧ (following .seeking 0 0).timer.sync = .seeking ∧ (following .locked 0 0).timer.sync ≠ .seeking := by decide

theorem test_hyps_TickAdvancesTheValue :
    State.reset.timer.cycleRunning = false
    ∧ ∀ v : BitVec 16, v = 0 ∨ v = 574 →
      (running 7 v).Settled ∧ (running 7 v).timer.cycleRunning = true
      ∧ (running 7 v).timer.value.toNat + 1 < (running 7 v).timer.limit := by
  refine ⟨rfl, ?_⟩
  rintro v (h | h) <;> subst h <;> unfold State.Settled <;> decide +kernel

theorem test_hyps_PeriodEndBeginsOrStops :
    ∀ s : State, s = running 7 575 ∨ s = following .holdover 4 575 ∨ s = (withTimer fun t => { t with state := .stopping, value := 575 })
        ∨ s = (withTimer fun t => { t with state := .single, value := 575 }) →
      s.inReset = false ∧ s.Settled ∧ s.timer.cycleRunning = true ∧ s.timer.sync ≠ .locked
      ∧ s.timer.value.toNat + 1 = s.timer.period.toNat := by
  rintro s (h | h | h | h) <;> subst h <;> unfold State.Settled <;> decide +kernel

/-- A queue of 28 entries. -/
def queueOf (n : Nat) : EventQueue := { entries := List.replicate n { kind := .statusChange }, reserved := ⟨false, false⟩, drops := 0 }

theorem test_hyps_WindowExpiryLosesSync :
    ∀ s : State, s = { following .locked 2 579 with events := queueOf 28 }
        ∨ s = (let s := following .locked 2 579; { s with timer := { s.timer with state := .stopping } }) →
      s.inReset = false ∧ s.Settled ∧ s.timer.sync = .locked
      ∧ s.timer.value.toNat + 1 = s.timer.period.toNat + s.timer.window.toNat ∧ s.events.load + 4 ≤ 32 := by
  rintro s (h | h) <;> subst h <;> unfold State.Settled <;> decide +kernel

theorem test_hyps_SyncSamplesActBySyncState :
    (running 7 200).timer.mode = .free ∧ State.reset.timer.prevSync ≠ some true
    ∧ (∀ s : State, s = following .seeking 0 0 ∨ s = following .locked 1 571 ∨ s = following .locked 1 572 ∨ s = following .holdover 4 120 →
        s.timer.mode = .follow ∧ s.timer.prevSync = some true ∧ s.timer.state = .running)
    ∧ (following .locked 1 571).timer.value.toNat + (4 : Byte).toNat < 576
    ∧ 576 ≤ (following .locked 1 572).timer.value.toNat + (4 : Byte).toNat
    ∧ ({ following .holdover 4 120 with events := queueOf 28 } : State).events.load + 4 ≤ 32 := by
  refine ⟨rfl, by decide, ?_, by decide, by decide, by decide +kernel⟩
  rintro s (h | h | h | h) <;> subst h <;> decide

theorem test_hyps_notices :
    (let e := { Engine.reset with state := .wait, slot := some (slotOf (running 7 400) (notice 7)
        { index := 3, entry := entry 400 0 kindOpen 0 0, budgetEnd := 576 } false 0) };
      ∃ c, e.EndsAtNotice c ∧ c.index = 3 ∧ c.changeovers = store.changeovers)
    ∧ (let e := { Engine.reset with state := .wait, notice := some (notice 7), walk := 2 };
      e.Unbegun store .a 2 (notice 7) ∧ ∀ m, ¬ e.Unbegun store .a 1 m)
    ∧ Engine.reset.state = .off := by
  refine ⟨⟨_, ⟨rfl, by decide, rfl, rfl, .inl rfl⟩, rfl, rfl⟩, ⟨⟨rfl, rfl, by decide, by unfold SlotList.IsDue; decide +kernel⟩, ?_⟩, rfl⟩
  rintro m ⟨-, -, h, -⟩; revert h; decide

/-- A stopped timer with a period. -/
def stoppedAt (period : Half) : State := withTimer fun t => { t with period := period }

theorem test_hyps_TimerSettingsAreWrittenWhileStopped :
    (stoppedAt 65280).timer.state = .stopped ∧ (0xFF : Byte) ≠ 0 ∧ (stoppedAt 65280).timer.period.toNat + (0xFF : Byte).toNat ≤ 65535
    ∧ 65535 < (stoppedAt 65281).timer.period.toNat + (0xFF : Byte).toNat ∧ (running 1 0).timer.state ≠ .stopped := by decide

theorem test_hyps_PeriodWriteObeysSixConditions :
    PeriodTakes State.reset 100 ∧ ¬ PeriodTakes State.reset 99 ∧ PeriodTakes { State.reset with schedule := store } 521
    ∧ ¬ PeriodTakes { State.reset with schedule := store } 520 ∧ ¬ PeriodTakes State.reset 65532
    ∧ ∃ t, exec .softReset State.reset = .next t := by
  refine ⟨?_, ?_, ?_, ?_, ?_, _, rfl⟩
  · refine ⟨rfl, by decide, by decide, ?_, nofun, nofun⟩
    intro l; cases l <;> decide +kernel
  · rintro ⟨-, h, -⟩; revert h; decide
  · refine ⟨rfl, by decide, by decide, ?_, nofun, nofun⟩
    intro l; cases l <;> decide +kernel
  · rintro ⟨-, -, -, h, -⟩; revert h
    intro h; have := h .a 4; revert this; decide +kernel
  · rintro ⟨-, -, h, -⟩; revert h; decide

theorem test_hyps_LowByteReadsLatchTheHighByte : State.reset.inReset = false := rfl

/-- SYNC as an output: in the pulse of a cycle begin, after it, and in STOPPED, in every case with the cycle's first tick to come. -/
def driving (state : TimerState) (pulse : Bool) : State :=
  withTimer fun t => { t with state := state, syncOutEnable := true, pulse := pulse }

theorem test_hyps_TickAdvancesTheValue_sync :
    (∀ pulse, (driving .running pulse).inReset = false ∧ (driving .running pulse).timer.mode = .free
      ∧ (driving .running pulse).timer.syncOutEnable = true ∧ (driving .running pulse).timer.pulse = pulse)
    ∧ ((driving .stopped false).timer.Legal ∧ (driving .stopped false).timer.state = .stopped)
    ∧ ((following .locked 1 300).timer.mode = .follow ∧ State.reset.timer.syncOutEnable = false
      ∧ (after .pinReset State.reset).inReset = true)
    ∧ ((following .locked 1 300).timer.sync = .locked ∧ (running 1 0).timer.sync ≠ .locked) := by
  refine ⟨fun _ => ⟨rfl, rfl, rfl, rfl⟩, ⟨?_, rfl⟩, by decide +kernel, by decide⟩
  unfold Timer.Legal; decide

theorem test_hyps_TimerStaysLegal :
    State.reset.timer.Legal ∧ (following .locked 2 579).timer.Legal ∧ ∃ t, step (following .locked 2 579) = .next t := by
  refine ⟨?_, ?_, _, rfl⟩ <;> unfold Timer.Legal <;> decide

theorem test_hyps_CountAndActiveBankChangeOnlyAtBegins :
    (let t := after .tick { running 40 575 with schedule := { store with changeover := .armed } };
      t.timer.cycleCount ≠ 40 ∧ t.schedule.active ≠ store.active) ∧ ¬ isReset .tick := by
  refine ⟨by decide +kernel, ?_⟩; simp [isReset]

/-- A store in a changeover state. -/
def storeIn (c : ChangeoverState) : State := { State.reset with schedule := { store with changeover := c } }

theorem test_hyps_ChangeoverCommandsFollowTheTable :
    (State.reset.schedule.changeover = .none ∧ State.reset.schedule.copy = none)
    ∧ (after .copyActive State.reset).schedule.copy.isSome = true
    ∧ (storeIn .checking).schedule.changeover = .checking ∧ (storeIn .armed).schedule.changeover = .armed := by decide +kernel

theorem test_hyps_CheckFindsTheFirstFailure :
    bankCheck (pendingFour 600) 576 = some { line := .a, reason := 2, index := 3, station := 21 }
    ∧ bankCheck ⟨SlotList.reset, (pendingFour 600).a⟩ 576 = some { line := .b, reason := 2, index := 3, station := 21 }
    ∧ bankCheck ⟨{ SlotList.reset with count := 33 }, SlotList.reset⟩ 576 = some { line := .a, reason := 1, index := 255, station := 0 }
    ∧ bankCheck (pendingFour 575) 576 = none := by decide +kernel

theorem dueList_valid : SlotList.Valid dueList 576 := by unfold SlotList.Valid Entry.Valid; decide +kernel

theorem resetBank_valid (period : Half) : Bank.Valid Bank.reset period := by
  refine ⟨⟨by decide, ?_, ?_⟩, ⟨by decide, ?_, ?_⟩⟩ <;> intros <;> simp [Bank.reset, SlotList.reset] at *

theorem test_hyps_ChecksAndCopiesEnd :
    ((storeIn .checking).schedule.changeover = .checking
      ∧ Bank.Valid (storeIn .checking).schedule.pendingBank (storeIn .checking).timer.period)
    ∧ ¬ Bank.Valid ({ store with bank1 := pendingFour 600 } : Schedule).pendingBank 576
    ∧ (after .copyActive State.reset).schedule.copy.isSome = true := by
  refine ⟨⟨rfl, resetBank_valid _⟩, ?_, by decide +kernel⟩
  rintro ⟨⟨-, h, -⟩, -⟩
  have := (h 3 (by decide +kernel)).1.2
  revert this; decide +kernel

theorem test_hyps_EntryReadAnswersFirstDueAndBudget :
    (7 : Byte).toNat ≤ 7 ∧ (notice 10).changeovers = store.changeovers
    ∧ ({ notice 10 with changeovers := 1 } : Notice).changeovers ≠ store.changeovers
    ∧ store.entryRead 576 .a (notice 10) 32 = none ∧ (store.entryRead 576 .a (notice 10) 0).isSome = true
    ∧ SlotList.Valid (store.activeBank.get .a) 576 :=
  ⟨by decide, rfl, by decide, by decide +kernel, by decide +kernel, dueList_valid⟩

theorem test_hyps_ScheduleStaysLegal :
    State.reset.ScheduleLegal
    ∧ ({ running 40 575 with schedule := { store with changeover := .armed } } : State).ScheduleLegal
    ∧ ∃ t, step ({ running 40 575 with schedule := { store with changeover := .armed } } : State) = .next t := by
  refine ⟨⟨resetBank_valid _, nofun, by decide, nofun⟩, ⟨⟨dueList_valid, (resetBank_valid 576).2⟩, ?_, by decide, nofun⟩, _, rfl⟩
  intro _; exact resetBank_valid _

/-! ### Line engines -/

/-- Both engines of a part are legal. -/
theorem lineA_legal (e : Engine) (h : e = lineA ∨ e = { lineA with next := some slotTwo } ∨ e = { lineA with next := some slotThree }) :
    e.Legal := by
  rcases h with h | h | h <;> subst h <;> simp [Engine.Legal, lineA, Engine.reset, Engine.inFlight]

theorem reset_legal : Engine.reset.Legal := by simp [Engine.Legal, Engine.reset, Engine.inFlight, Engine.HoldsNothing]

/-- Line A on its way to OFF after a LINE_DISABLE. -/
def disablingLine : Engine := { Engine.reset with state := .transmit, disabling := true, tx := some { byte := 0x15, head := true, clock := 0 } }

theorem inAttempt_legal (st : EngineState) (a : Attempt)
    (h : (st = .transmit ∧ a = attemptAt 4) ∨ (st = .await ∧ a = attemptAt 5)
      ∨ (st = .receive ∧ (∃ r, a = { attemptAt 5 with arrival := some { cycle := 30, value := 247, stopped := false }, reply := some r }))
      ∨ (st = .quiet ∧ a = { attemptAt 5 with judged := some .broken })) : (inAttempt st a).Legal := by
  rcases h with ⟨h, k⟩ | ⟨h, k⟩ | ⟨h, r, k⟩ | ⟨h, k⟩ <;> subst h <;> subst k <;>
    simp [Engine.Legal, inAttempt, lineA, Engine.reset, Engine.inFlight, slotAt, slotOf, Engine.exchange, Slot.exchange, attemptAt,
      slotTwo, entry, Slot.isOpen, Slot.kindSent, Entry.zero, kindOpen, kindBroadcast, kindRead, kindWrite, kindResync, requiredLength,
      Outcome.Failed]

theorem afterTimeout_legal : afterTimeout.Legal := by
  simp [Engine.Legal, afterTimeout, lineA, Engine.reset, Engine.inFlight, slotAt, slotOf, slotTwo, entry, Slot.isOpen, kindOpen, kindRead,
    Outcome.Failed, Entry.zero, Engine.exchange, Slot.exchange, Slot.kindSent, kindBroadcast]

/-- Line A serving tag 9 in the OPEN slot of cycle 11, its reply's check to come. -/
def serving : Engine :=
  { lineA with
    notice := some (notice 11), walk := 4, state := .receive, slot := some (openSlot 11 520), held := some 6
    request := some { desc := tag9, cycle := 11, index := 3, attempts := 1 }
    attempt := some
      { station := 17, kind := kindStatus, seqBit := false, expected := 8, replyWindow := 40, frame := requestFrame 17 kindStatus false [],
        sent := 5, echo := none, windowOver := false, arrival := some { cycle := 11, value := 432, stopped := false },
        reply := some { stage := .checkLow, seqBit := false, refuse := false, nibble := 2, length := 8, got := 8, crc := 0x1234,
                        checkHigh := 0x12 }, judged := none } }

theorem serving_legal : serving.Legal := by
  simp [Engine.Legal, serving, lineA, Engine.reset, Engine.inFlight, openSlot, slotOf, entry, Engine.exchange, Request.exchange, tag9, request,
    Slot.isOpen, Entry.zero, kindOpen, kindBroadcast, kindStatus, kindWrite, kindResync, requiredLength]

theorem test_hyps_LineEnableStartsAnOffLine :
    lineArg 2 = none ∧ lineArg 0xFF = none ∧ lineArg 0 = some .a ∧ lineArg 1 = some .b
    ∧ (State.reset.engine .b).state = .off ∧ ((lineState 0 lineA).engine .a).state ≠ .off := by decide

theorem test_hyps_LineDisableTearsTheLineDown :
    lineArg 2 = none ∧ (State.reset.engine .a).state = .off
    ∧ (disablingLine.state ≠ .off ∧ disablingLine.disabling = true)
    ∧ (∀ e : Engine, e = lineA ∨ e = inAttempt .transmit (attemptAt 4) ∨ e = inAttempt .await (attemptAt 5) ∨ e = serving →
        e.state ≠ .off ∧ e.disabling = false ∧ e.Legal)
    ∧ lineA.slot = none ∧ lineA.request = none ∧ (inAttempt .await (attemptAt 5)).slot = some (slotAt 1)
    ∧ serving.request = some { desc := tag9, cycle := 11, index := 3, attempts := 1 } := by
  refine ⟨rfl, rfl, by decide, ?_, rfl, rfl, rfl, rfl⟩
  rintro e (h | h | h | h) <;> subst h
  · exact ⟨by decide, rfl, lineA_legal _ (.inl rfl)⟩
  · exact ⟨by decide, rfl, inAttempt_legal _ _ (.inl ⟨rfl, rfl⟩)⟩
  · exact ⟨by decide, rfl, inAttempt_legal _ _ (.inr (.inl ⟨rfl, rfl⟩))⟩
  · exact ⟨by decide, rfl, serving_legal⟩

theorem test_hyps_LineSettingsAreWrittenWhileOff :
    Engine.reset.state = .off ∧ lineA.state ≠ .off
    ∧ ((0x0F : Byte) ++ (0xFF : Byte)).toNat ≤ 4095 ∧ 4095 < ((0x10 : Byte) ++ (0x00 : Byte)).toNat
    ∧ (∀ v : Byte, v = 2 ∨ v = 63 → 2 ≤ v.toNat ∧ v.toNat ≤ 63) ∧ (∀ v : Byte, v = 2 ∨ v = 15 → 2 ≤ v.toNat ∧ v.toNat ≤ 15)
    ∧ (∀ v : Byte, v = 1 ∨ v = 15 → 1 ≤ v.toNat ∧ v.toNat ≤ 15) ∧ (0xFF : Byte).toNat ≥ 1
    ∧ (1 : Byte).toNat < 2 ∧ 63 < (64 : Byte).toNat ∧ 15 < (16 : Byte).toNat ∧ (0 : Byte).toNat < 1 := by decide

theorem test_hyps_CountersAreClearedByAnyWrite : State.reset.inReset = false := rfl

/-- Line A with a kept entry of a kind for a station, A:21's record being given. -/
def beginState (value : Half) (e : Entry) (r : Station) : State :=
  let s := lineState value { lineA with next := some { slotTwo with entry := e } }
  { s with stations := (s.setStation .a 20 r).stations }

theorem beginState_reached (value : Half) (e : Entry) (r : Station) (h : e.offset.toNat ≤ value.toNat) :
    Reached (beginState value e r) .a (notice 30) { slotTwo with entry := e } := by
  refine ⟨?_, rfl, rfl, rfl, rfl, h⟩
  simp [Engine.Legal, beginState, State.engine, Two.get, lineState, lineA, Engine.reset, Engine.inFlight]

/-- A:21 in a health state with a countdown. -/
def inHealth (h : Health) (probe : Byte) : Station := { Station.reset with health := h, probe := probe }

theorem test_hyps_SlotBeginSendsToAStation :
    (∀ value : BitVec 16, value = 160 ∨ value = 210 → ∀ r, r = inHealth .online 0 ∨ r = inHealth .unknown 0 ∨ r = inHealth .offline 1 →
      let s := beginState value (entry 160 21 kindRead 0 0) r
      Reached s .a (notice 30) slotTwo ∧ s.inReset = false
      ∧ s.timer.value.toNat + slotTwo.entry.reservation.toNat ≤ slotTwo.budgetEnd.toNat
      ∧ (s.station .a 20).health ≠ .parked ∧ ((s.station .a 20).health = .offline → (s.station .a 20).probe = 1))
    ∧ stationIx slotTwo.entry.station = some 20 ∧ slotTwo.entry.kind ≠ kindBroadcast ∧ slotTwo.entry.kind ≠ kindOpen
    ∧ 1 ≤ slotTwo.entry.reservation.toNat := by
  refine ⟨?_, by decide, by decide, by decide, by decide⟩
  rintro value (h | h) r (k | k | k) <;> subst h <;> subst k <;>
    exact ⟨beginState_reached _ _ _ (by decide), rfl, by decide, by decide, by decide⟩

theorem test_hyps_SlotBeginSendsABroadcast :
    let e := entry 160 63 kindBroadcast 0 0
    Reached (beginState 160 e Station.reset) .a (notice 30) { slotTwo with entry := e }
    ∧ (160 : Half).toNat + e.reservation.toNat ≤ slotTwo.budgetEnd.toNat ∧ 1 ≤ e.reservation.toNat ∧ e.kind = kindBroadcast :=
  ⟨beginState_reached _ _ _ (by decide), by decide, by decide, rfl⟩

/-- Line A with the store of section 3.2, its walk at A/2, at a value of cycle 30. -/
def walking (value : Half) : State := { lineState value lineA with schedule := store }

theorem test_hyps_SlotBeginWithoutTraffic_reads :
    (∀ value, ((walking value).engine .a).Legal ∧ ((walking value).engine .a).state = .wait ∧ ((walking value).engine .a).slot = none
      ∧ ((walking value).engine .a).next = none ∧ ((walking value).engine .a).notice = some (notice 30))
    ∧ (∃ r, store.entryRead 576 .a (notice 30) 2 = some r ∧ r.entry.offset = 160)
    ∧ (159 : Half).toNat < (160 : Half).toNat ∧ ListFinished (lineState 160 lineA) .a := by
  refine ⟨fun _ => ⟨lineA_legal _ (.inl rfl), rfl, rfl, rfl, rfl⟩, ⟨_, rfl, by decide +kernel⟩, by decide, ?_⟩
  intro n hn
  have : n = notice 30 := by simpa [lineState, State.engine, Two.get, lineA] using hn.symm
  subst this; decide +kernel

theorem test_hyps_SlotBeginWithoutTraffic :
    (let e := entry 160 0 kindOpen 0 0;
      Reached (beginState 160 e Station.reset) .a (notice 30) { slotTwo with entry := e } ∧ e.kind = kindOpen
      ∧ (160 : Half).toNat + e.reservation.toNat ≤ slotTwo.budgetEnd.toNat ∧ 1 ≤ e.reservation.toNat)
    ∧ (∀ r, let s := beginState 211 (entry 160 21 kindRead 0 0) r
        Reached s .a (notice 30) slotTwo ∧ s.schedule.entryRead s.timer.period .a (notice 30) 3 = none)
    ∧ slotTwo.budgetEnd.toNat < (211 : Half).toNat + slotTwo.entry.reservation.toNat
    ∧ (inHealth .parked 0).health = .parked ∧ ((inHealth .offline 2).health = .offline ∧ (inHealth .offline 2).probe ≠ 1)
    ∧ (inAttempt .await (attemptAt 5)).state ≠ .wait ∧ (openState 11 400 520 []).lines.a.slot.isSome = true
    ∧ (159 : Half).toNat < slotTwo.entry.offset.toNat := by
  refine ⟨⟨beginState_reached _ _ _ (by decide), rfl, by decide, by decide⟩, ?_, by decide, rfl, by decide, by decide, rfl, by decide⟩
  intro r
  exact ⟨beginState_reached _ _ _ (by decide), by simp [beginState, lineState, running, withTimer, State.reset, Schedule.entryRead, notice, Schedule.activeBank, Schedule.reset, Bank.reset, Two.get, SlotList.nextDue, SlotList.dueAt, SlotList.reset]⟩

/-- The echo of the head character of an attempt. -/
def echoed : Attempt := { attemptAt 0 with echo := some { byte := 0x15, head := true, framing := false } }

/-- Line A sending a BROADCAST. -/
def broadcasting : Engine :=
  { lineA with
    state := .transmit, walk := 3, slot := some { slotAt 1 with entry := entry 160 63 kindBroadcast 0 0 }
    attempt := some { attemptAt 4 with station := 63, kind := kindBroadcast }, tx := some { byte := 0, head := false, clock := 0 } }

theorem test_hyps_CharacterEndsContinueTheFrame :
    lineA.state ≠ .transmit ∧ (disablingLine.state = .transmit ∧ disablingLine.disabling = true)
    ∧ ((inAttempt .transmit (attemptAt 3)).state = .transmit ∧ (inAttempt .transmit (attemptAt 3)).disabling = false)
    ∧ ¬ EchoGood (attemptAt 0) ∧ EchoGood echoed
    ∧ ((attemptAt 3).sent + 1 < (attemptAt 3).frame.length) ∧ (attemptAt 4).frame.length ≤ (attemptAt 4).sent + 1
    ∧ (attemptAt 4).kind ≠ kindBroadcast
    ∧ (broadcasting.Legal ∧ broadcasting.request = none ∧ broadcasting.held = none ∧ broadcasting.slot.isSome = true
      ∧ broadcasting.attempt.any (fun a => a.kind == kindBroadcast && decide (a.frame.length ≤ a.sent + 1)) = true) := by
  refine ⟨by decide, by decide, by decide, by simp [EchoGood, attemptAt], by unfold EchoGood; decide +kernel, by decide +kernel,
    by decide +kernel, by decide, ?_, rfl, rfl, rfl, by decide +kernel⟩
  simp [Engine.Legal, broadcasting, lineA, Engine.reset, Engine.inFlight, slotAt, slotOf, Engine.exchange, Slot.exchange, attemptAt, slotTwo,
    entry, Slot.isOpen, Slot.kindSent, Entry.zero, kindOpen, kindBroadcast, kindRead, kindWrite, kindResync, requiredLength]

/-- Section 1.10: at divisor 9 a bit time is 160 periods; each position of a character begins and ends at its own period. -/
theorem test_hyps_CharacterEndsContinueTheFrame_pins :
    lineA.divisor = 9
    ∧ (∀ k : Nat, k = 0 ∨ k = 1 ∨ k = 8 ∨ k = 9 ∨ k = 10 → ∀ clock : Nat, clock = 160 * k ∨ clock = 160 * k + 159 →
      k * (16 * (lineA.divisor.toNat + 1)) ≤ clock ∧ clock < (k + 1) * (16 * (lineA.divisor.toNat + 1)))
    ∧ ((inAttempt .transmit (attemptAt 4)).tx.isSome = true ∧ (inAttempt .transmit (attemptAt 4)).state = .transmit)
    ∧ (lineA.tx = none ∧ lineA.state ≠ .transmit ∧ lineA.Legal) := by
  refine ⟨rfl, ?_, by decide, rfl, by decide, lineA_legal _ (.inl rfl)⟩
  rintro k (h | h | h | h | h) clock (c | c) <;> subst h <;> subst c <;> decide

/-- Line A at the end of a BROADCAST request in the OPEN slot of cycle 11. -/
def broadcastRequest : Engine :=
  { lineA with
    notice := some (notice 11), walk := 4, state := .transmit, slot := some (openSlot 11 520)
    request := some { desc := request 6 63 kindBroadcast 0 255 30 40 0, cycle := 11, index := 3, attempts := 1 }
    attempt := some
      { attemptAt 4 with station := 63, kind := kindBroadcast, expected := 255, frame := requestFrame 63 kindBroadcast false [] }
    tx := some { byte := 0, head := false, clock := 0 } }

theorem test_hyps_CharacterEndsContinueTheFrame_request :
    broadcastRequest.Legal ∧ broadcastRequest.slot = some (openSlot 11 520)
    ∧ broadcastRequest.request.any (·.desc.valid) = true
    ∧ broadcastRequest.attempt.any (fun a => a.kind == kindBroadcast && decide (a.frame.length ≤ a.sent + 1)) = true := by
  refine ⟨?_, rfl, by decide, by decide +kernel⟩
  simp [Engine.Legal, broadcastRequest, lineA, Engine.reset, Engine.inFlight, openSlot, slotOf, Engine.exchange, Request.exchange, attemptAt,
    request, entry, Slot.isOpen, Entry.zero, kindOpen, kindBroadcast, kindRead, kindWrite, kindResync, requiredLength]

/-- A character in reception on line A's engine. -/
def receiving (e : Engine) (place : EdgePlace) : Engine :=
  { e with
    rx :=
      { prev := some false
        char := some
          { place := place, capture := { cycle := 30, value := 247, stopped := false }, count := 0, votes := [], bits := [] } } }

/-- The window of the attempt is over and a character is in reception. -/
def overdue : Engine := receiving (inAttempt .await { attemptAt 5 with windowOver := true }) .window

theorem receives_inChar (s : State) (e : Engine) (place : EdgePlace) (h : s.engine .a = receiving e place) :
    Receives s .a place { cycle := 30, value := 247, stopped := false } :=
  .inl ⟨_, by rw [h]; rfl, rfl, rfl⟩

theorem test_hyps_StartEdgesCaptureAndStraysCount :
    Engine.reset.state = .off ∧ (receiving lineA .elsewhere).rx.char.isSome = true ∧ (receiving lineA .elsewhere).rx.prev = some false
    ∧ (lineA.state ≠ .off ∧ lineA.rx.char = none ∧ lineA.rx.prev ≠ some false)
    ∧ ((running 1 0).timer.cycleRunning = true ∧ State.reset.timer.cycleRunning = false)
    ∧ ((receiving (inAttempt .await (attemptAt 5)) .window).attempt.any (·.windowOver) = false)
    ∧ (overdue.rx.char.isSome = true ∧ overdue.state = .await ∧ overdue.attempt = some { attemptAt 5 with windowOver := true })
    ∧ (Receives (lineState 200 lineA) .a .elsewhere (lineState 200 lineA).timer.capture ∧ lineA.state = .wait)
    ∧ (Receives (lineState 200 (receiving afterTimeout .elsewhere)) .a .elsewhere { cycle := 30, value := 247, stopped := false }
      ∧ afterTimeout.state = .gap) := by
  refine ⟨rfl, rfl, rfl, by decide, by decide, rfl, ⟨rfl, rfl, rfl⟩, ⟨.inr ⟨rfl, by decide, rfl, rfl⟩, rfl⟩, ⟨?_, rfl⟩⟩
  exact receives_inChar _ afterTimeout _ rfl

/-- Line A in a state of its own, a character in reception at a place. -/
def hearing (e : Engine) (place : EdgePlace) : State := lineState 247 (receiving e place)

theorem test_hyps_StartEdgesCaptureAndStraysCount_places :
    (let e := inAttempt .transmit (attemptAt 3); e.state = .transmit ∧ e.attempt = some (attemptAt 3))
    ∧ ((attemptAt 5).windowOver = false ∧ overdue.attempt.any (·.windowOver) = true ∧ lineA.attempt = none)
    ∧ (Engine.reset.state = .off ∧ Engine.reset.rx.char = none)
    ∧ (let e := { lineA with rx := { prev := some false, char := none } }; e.rx.char = none ∧ e.rx.prev = some false)
    ∧ (∀ e place, Receives (hearing e place) .a place { cycle := 30, value := 247, stopped := false })
    ∧ (inAttempt .quiet (attemptAt 5)).state = .quiet
    ∧ (disablingLine.state = .transmit ∧ disablingLine.attempt = none)
    ∧ (let e := { inAttempt .transmit (attemptAt 0) with echoCheck := true };
      e.echoCheck = true ∧ e.attempt = some (attemptAt 0) ∧ (attemptAt 0).echo = none ∧ (attemptAt 0).sent = 0)
    ∧ ((inAttempt .transmit (attemptAt 3)).echoCheck = false ∧ EdgePlace.elsewhere ≠ .sending (attemptAt 3).sent
      ∧ echoed.echo.isSome = true) :=
  ⟨⟨rfl, rfl⟩, ⟨rfl, rfl, rfl⟩, ⟨rfl, rfl⟩, ⟨rfl, rfl⟩, fun e _ => receives_inChar _ e _ rfl, rfl, ⟨rfl, rfl⟩, ⟨rfl, rfl, rfl, rfl⟩,
    ⟨rfl, by decide, rfl⟩⟩

theorem test_hyps_AwaitFindsTheReplyHead :
    (let s := lineState 247 (inAttempt .await (attemptAt 5));
      s.inReset = false ∧ (s.engine .a).state = .await ∧ (s.engine .a).attempt = some (attemptAt 5)
      ∧ Receives s .a .window s.timer.capture)
    ∧ ((0x55 : Byte).setWidth 6 = (attemptAt 5).station.setWidth 6 ∧ (0x55 : Byte).getLsbD 6 = true)
    ∧ (0x56 : Byte).setWidth 6 ≠ (attemptAt 5).station.setWidth 6 ∧ (0x15 : Byte).getLsbD 6 = false
    ∧ Receives (lineState 247 (receiving (inAttempt .await (attemptAt 5)) .elsewhere)) .a .elsewhere
        { cycle := 30, value := 247, stopped := false }
    ∧ ((lineState 247 overdue).engine .a).attempt = some { attemptAt 5 with windowOver := true } := by
  refine ⟨⟨rfl, rfl, rfl, .inr ⟨rfl, by decide, rfl, rfl⟩⟩, by decide, by decide, by decide, ?_, rfl⟩
  exact receives_inChar _ (inAttempt .await (attemptAt 5)) _ rfl

/-- A reply of line A's attempt at a stage, four payload bytes expected. -/
def replyAt (stage : ReplyStage) : Reply :=
  { stage := stage, seqBit := false, refuse := false, nibble := 2, length := 4, got := 3, crc := 0x1234, checkHigh := 0x12 }
def inReply (stage : ReplyStage) : Attempt :=
  { attemptAt 5 with arrival := some { cycle := 30, value := 247, stopped := false }, reply := some (replyAt stage) }

/-- A good character with no head bit. -/
def plain (byte : Byte) : RxChar := { byte := byte, head := false, framing := false }

theorem test_hyps_ReplyCharactersAreJudged :
    (let s := lineState 290 (inAttempt .receive (inReply .payload));
      s.inReset = false ∧ (s.engine .a).state = .receive ∧ (s.engine .a).attempt = some (inReply .payload)
      ∧ (inReply .payload).reply = some (replyAt .payload) ∧ Receives s .a .elsewhere s.timer.capture)
    ∧ (∃ r, judgeNext (inReply .kind) (replyAt .kind) (plain 0x21) = .more r none)
    ∧ (∃ r, judgeNext (inReply .payload) (replyAt .payload) (plain 7) = .more r (some (3, 7)))
    ∧ ((inAttempt .receive (inReply .payload)).held = some 0 ∧ serving.held = some 6 ∧ afterTimeout.held ≠ none)
    ∧ judgeNext (inReply .length) (replyAt .length) (plain 33) = .failed .length
    ∧ judgeNext (inReply .checkLow) (replyAt .checkLow) (plain 0x35) = .whole .check (replyAt .checkLow)
    ∧ judgeNext { inReply .checkLow with kind := kindWrite, seqBit := true } (replyAt .checkLow) (plain 0x34)
      = .whole .sequence (replyAt .checkLow) := by
  refine ⟨⟨rfl, rfl, rfl, rfl, .inr ⟨rfl, by decide, rfl, rfl⟩⟩, ⟨_, rfl⟩, ⟨_, rfl⟩, by decide, by decide, by decide, by decide⟩

/-- Each stage at the values where its clauses meet, of a READ (code 1) that expects four bytes. -/
theorem test_hyps_ReplyCharactersAreJudged_stages :
    ((plain 0x20).framing = false ∧ (plain 0x20).head = false ∧ { plain 0 with head := true }.head = true)
    ∧ ((0x20 : Byte).toNat % 16 = 0 ∧ (0x21 : Byte).toNat % 16 = (inReply .kind).kind.toNat % 16
      ∧ (0x2F : Byte).toNat % 16 ≠ 0 ∧ (0x2F : Byte).toNat % 16 ≠ (inReply .kind).kind.toNat % 16)
    ∧ ((replyAt .length).stage = .length ∧ (replyAt .length).refuse = false ∧ (inReply .length).expected = 4
      ∧ (0x20 : Byte).toNat ≤ 32 ∧ 32 < (0x21 : Byte).toNat ∧ (0x20 : Byte) ≠ (inReply .length).expected)
    ∧ ((replyAt .checkLow).checkHigh ++ (0x34 : Byte) = (replyAt .checkLow).crc
      ∧ (replyAt .checkLow).checkHigh ++ (0x35 : Byte) ≠ (replyAt .checkLow).crc)
    ∧ ((8 : Byte).toNat ≤ 15 ∧ kindWrite = 2 ∧ (replyAt .checkLow).seqBit ≠ true)
    ∧ crc [] = 0xFFFF := by decide +kernel

theorem test_hyps_JudgedReplyEndsTheSlot :
    (let s := lineState 296 (inAttempt .receive (inReply .checkLow));
      s.inReset = false ∧ (s.engine .a).state = .receive ∧ (s.engine .a).attempt = some (inReply .checkLow)
      ∧ (inReply .checkLow).arrival = some { cycle := 30, value := 247, stopped := false } ∧ (s.engine .a).Legal
      ∧ (s.engine .a).request = none ∧ (s.engine .a).slot = some (slotAt 1) ∧ (s.engine .a).held = some 0
      ∧ Receives s .a .elsewhere s.timer.capture)
    ∧ stationIx (inReply .checkLow).station = some 20
    ∧ judgeNext (inReply .checkLow) (replyAt .checkLow) (plain 0x34) = .whole .ok (replyAt .checkLow)
    ∧ judgeNext (inReply .checkLow) { replyAt .checkLow with refuse := true } (plain 0x34)
      = .whole .refused { replyAt .checkLow with refuse := true }
    ∧ mailboxArg (slotAt 1).entry.mailbox = some 5 ∧ mailboxArg 255 = none ∧ mailboxArg 48 = none := by
  refine ⟨⟨rfl, rfl, rfl, rfl, ?_, rfl, rfl, rfl, .inr ⟨rfl, by decide, rfl, rfl⟩⟩, by decide, by decide, by decide, by decide, by decide, by decide⟩
  exact inAttempt_legal _ _ (.inr (.inr (.inl ⟨rfl, _, rfl⟩)))

theorem test_hyps_JudgedReplyEndsTheSlot_results :
    ((slotAt 1).resync = false ∧ { slotAt 1 with resync := true }.resync = true)
    ∧ ((inAttempt .await (attemptAt 5)).snapshot = none ∧ lineA.snapshot = none)
    ∧ ((0 : Half) = State.reset.schedule.changeovers ∧ (1 : Half) ≠ State.reset.schedule.changeovers) := by decide

theorem test_hyps_WindowsAndWaitsEndAttempts :
    lineA.state ≠ .await ∧ (receiving (inAttempt .receive (inReply .kind)) .elsewhere).rx.char.isSome = true
    ∧ ((inAttempt .await (attemptAt 5)).state = .await ∧ (inAttempt .await (attemptAt 5)).rx.char = none
      ∧ (inAttempt .await (attemptAt 5)).attempt = some (attemptAt 5))
    ∧ (receiving (inAttempt .await (attemptAt 5)) .window).rx.char.isSome = true
    ∧ ((inAttempt .receive (inReply .kind)).state = .receive ∧ (inAttempt .receive (inReply .kind)).rx.char = none)
    ∧ (receiving (inAttempt .quiet (attemptAt 5)) .elsewhere).rx.prev = some false
    ∧ ((inAttempt .quiet { attemptAt 5 with judged := some .broken }).state = .quiet
      ∧ (inAttempt .quiet { attemptAt 5 with judged := some .broken }).rx.prev ≠ some false ∧ Outcome.broken.Failed) := by
  refine ⟨by decide, rfl, ⟨rfl, rfl, rfl⟩, rfl, ⟨rfl, rfl⟩, rfl, rfl, by decide, by simp [Outcome.Failed]⟩

theorem test_hyps_FrameGapEndRetriesOrEndsTheSlot :
    (∀ value : BitVec 16, value = 210 ∨ value = 211 →
      let s := lineState value afterTimeout
      s.inReset = false ∧ (s.engine .a).Legal ∧ (s.engine .a).state = .gap ∧ (s.engine .a).failed = some .timeout
      ∧ (s.engine .a).request = none ∧ (s.engine .a).slot = some (slotAt 1) ∧ 1 ≤ (slotAt 1).entry.reservation.toNat
      ∧ (RetryDue s (slotAt 1) ↔ value = 210) ∧ ListFinished s .a)
    ∧ ¬ RetryDue (lineState 200 afterTimeout) (slotAt 3) ∧ (slotAt 1).kindSent ≠ kindBroadcast
    ∧ ({ slotAt 1 with entry := entry 160 63 kindBroadcast 0 0 } : Slot).kindSent = kindBroadcast
    ∧ stationIx (entry 160 63 kindBroadcast 0 0).station = none := by
  refine ⟨?_, by unfold RetryDue; decide +kernel, by decide, by decide, by decide⟩
  rintro value (h | h) <;> subst h <;>
    refine ⟨rfl, afterTimeout_legal, rfl, rfl, rfl, rfl, by decide, by unfold RetryDue; decide +kernel, ?_⟩ <;>
    · intro n hn
      have : n = notice 30 := by simpa [lineState, State.engine, Two.get, afterTimeout, lineA] using hn.symm
      subst this; decide +kernel

/-- Line A in the frame gap after a failed first attempt of a request in an OPEN slot with a budget end. -/
def requestFailed (d : Descriptor) (o : Outcome) (budgetEnd : Half) (attempts : Nat) : Engine :=
  { lineA with
    notice := some (notice 11), walk := 4, state := .gap, slot := some (openSlot 11 budgetEnd), failed := some o
    held := if d.kind = kindBroadcast then none else some 6
    request := some { desc := d, cycle := 11, index := 3, attempts := attempts } }

/-- Its state, at a value of cycle 11: A:17 ONLINE. -/
def failedState (value : Half) (e : Engine) : State :=
  let s := openState 11 value 520 []
  { s with lines := ⟨e, Engine.reset⟩ }

theorem requestFailed_legal (d : Descriptor) (o : Outcome) (budgetEnd : Half)
    (h : (d = tag9 ∧ o = .timeout) ∨ (d = request 6 63 kindBroadcast 0 255 30 40 0 ∧ o = .conflict)) :
    (requestFailed d o budgetEnd 1).Legal := by
  rcases h with ⟨h, k⟩ | ⟨h, k⟩ <;> subst h <;> subst k <;>
    simp [Engine.Legal, requestFailed, lineA, Engine.reset, Engine.inFlight, openSlot, slotOf, Engine.exchange, Request.exchange, tag9,
      request, entry, Slot.isOpen, Entry.zero, kindOpen, kindBroadcast, kindStatus, Outcome.Failed]

theorem test_hyps_FrameGapEndRetriesOrEndsTheSlot_request :
    let q : Request := { desc := tag9, cycle := 11, index := 3, attempts := 1 }
    (∀ value : BitVec 16, value = 480 ∨ value = 481 ∨ value = 520 →
      let s := failedState value (requestFailed tag9 .timeout 520 1)
      s.inReset = false ∧ (s.engine .a).Legal ∧ (s.engine .a).state = .gap ∧ (s.engine .a).failed = some .timeout
      ∧ (s.engine .a).request = some q ∧ (s.engine .a).slot = some (openSlot 11 520) ∧ 1 ≤ tag9.reservation.toNat
      ∧ (RequestRetryDue s (openSlot 11 520) q ↔ value = 480) ∧ (0 < timeRemaining s (openSlot 11 520) ↔ value ≠ 520))
    ∧ ¬ RequestRetryDue (failedState 100 lineA) (openSlot 11 520) { q with attempts := 2 }
    ∧ stationIx tag9.station = some 16 ∧ stationIx 63 = none
    ∧ (requestFailed (request 6 63 kindBroadcast 0 255 30 40 0) .conflict 520 1).Legal := by
  refine ⟨?_, by unfold RequestRetryDue; decide +kernel, by decide, by decide, requestFailed_legal _ _ _ (.inr ⟨rfl, rfl⟩)⟩
  rintro value (h | h | h) <;> subst h <;>
    exact ⟨rfl, requestFailed_legal _ _ _ (.inl ⟨rfl, rfl⟩), rfl, rfl, rfl, rfl, by decide, by unfold RequestRetryDue; decide +kernel,
      by decide +kernel⟩

/-- Section 8.7 and R135 to R137: with 39 ticks left of the 40 that tag 9 reserves it completes TIMEOUT, without its buffer, and A:17 is told. -/
theorem test_frameGapEnd_request :
    let t := after (.frameGapEnd .a) (failedState 481 (requestFailed tag9 .timeout 520 1))
    (t.engine .a).request = none ∧ (t.engine .a).slot.isSome = true ∧ t.pool.free = [6, 7, 6]
    ∧ (t.events.entries.map fun e => (e.kind, e.code, e.tag)).count (.acyclicDone, 3, 9) = 1
    ∧ (t.station .a 16).health = .suspect := by decide +kernel

/-- Line A in an OPEN slot of cycle 11, in a state. -/
def openEngine (state : EngineState) : Engine :=
  { lineA with notice := some (notice 11), walk := 32, state := state, slot := some (openSlot 11 520) }

theorem test_hyps_GapsAndOpenSlotsEnd :
    lineA.state ≠ .gap
    ∧ (let e := { lineA with state := .gap }; e.state = .gap ∧ e.failed = none ∧ e.slot = none ∧ e.next = none)
    ∧ ListFinished (lineState 100 { lineA with state := .gap }) .a
    ∧ ((openEngine .gap).state = .gap ∧ (openEngine .gap).failed = none ∧ (openEngine .gap).slot = some (openSlot 11 520)
      ∧ (openSlot 11 520).isOpen = true ∧ 0 < timeRemaining (running 11 519) (openSlot 11 520))
    ∧ openSlotOver .a (lineState 519 (openEngine .wait)) = false
    ∧ (timeRemaining (running 11 520) (openSlot 11 520) = 0 ∧ (openEngine .gap).request = none ∧ (openEngine .gap).next = none
      ∧ (openSlot 11 520).carried = false ∧ (openEngine .wait).state = .wait)
    ∧ ListFinished (lineState 520 (openEngine .gap)) .a ∧ ListFinished (lineState 520 (openEngine .wait)) .a := by
  refine ⟨by decide, ⟨rfl, rfl, rfl, rfl⟩, ?_, ⟨rfl, rfl, rfl, by decide, by decide⟩, by decide +kernel, by decide, ?_, ?_⟩
  · intro n hn
    have : n = notice 30 := by simpa [lineState, State.engine, Two.get, lineA] using hn.symm
    subst this; decide +kernel
  all_goals
    intro n hn
    have : n = notice 11 := by simpa [lineState, State.engine, Two.get, openEngine, lineA] using hn.symm
    subst this; decide +kernel

/-- R63: the OPEN slot of cycle 11 is legal, and its result is the rule's. -/
theorem test_hyps_GapsAndOpenSlotsEnd_result :
    (openEngine .wait).Legal ∧ ((openSlot 11 520).result .ok (openEngine .wait).generation).cycle = 11 := by
  refine ⟨?_, rfl⟩
  simp [Engine.Legal, openEngine, lineA, Engine.reset, Engine.inFlight, openSlot, slotOf, entry, Slot.isOpen, kindOpen, Entry.zero,
    Engine.exchange, Slot.exchange, Slot.kindSent, kindBroadcast]

theorem test_hyps_GapsAndOpenSlotsEnd_time :
    ((openSlot 11 520).noticeHeld = true ∧ { openSlot 11 520 with noticeHeld := false }.noticeHeld = false)
    ∧ (running 11 520).timer.value.toNat = (openSlot 11 520).budgetEnd.toNat
    ∧ (running 11 519).timer.value.toNat < (openSlot 11 520).budgetEnd.toNat := by decide

theorem test_hyps_EnginesStayLegal :
    (∀ l, ((lineState 160 { lineA with next := some slotTwo }).engine l).Legal)
    ∧ ∃ t, step (lineState 160 { lineA with next := some slotTwo }) = .next t := by
  refine ⟨?_, _, rfl⟩
  intro l; cases l
  · exact lineA_legal _ (.inr (.inl rfl))
  · exact reset_legal

/-! ### Stations, images, buffers -/

theorem test_hyps_ReportsUpdateTheRecord :
    (let p := reportOf kindResync .ok (some 4) 105; p.outcome = .ok ∧ p.kind = kindResync ∧ isSequenced p.kind = false)
    ∧ ((reportOf kindExchange .ok (some 0) 1).kind ≠ kindResync ∧ isSequenced (reportOf kindExchange .ok (some 0) 1).kind = true)
    ∧ ((reportOf kindExchange .refused (some 0) 1).outcome = .refused ∧ (reportOf kindExchange .timeout none 1).outcome ≠ .ok)
    ∧ (3 : Byte).toNat ≤ (suspect.failCount + 1).toNat ∧ ¬ (4 : Byte).toNat ≤ (suspect.failCount + 1).toNat
    ∧ (1 : Byte).toNat ≤ 1 ∧ ¬ (2 : Byte).toNat ≤ 1
    ∧ (suspect.health = .suspect ∧ (inHealth .unknown 0).health = .unknown ∧ (inHealth .online 0).health = .online
      ∧ (inHealth .offline 1).health = .offline ∧ (inHealth .parked 0).health = .parked) := by decide

theorem test_hyps_AttemptReportsCount :
    (65534 : Half).toNat < 65535 ∧ stationIx 1 = some 0 ∧ stationIx 62 = some 61 ∧ stationIx 0 = none ∧ stationIx 63 = none
    ∧ Outcome.timeout.corrupt = false ∧ Outcome.check.corrupt = true ∧ Outcome.conflict.corrupt = true := by decide

/-- Line A receiving the last character of an OK reply to an EXCHANGE of A:21. -/
def exchangeEnd : Engine :=
  { lineA with
    state := .receive, walk := 3, slot := some { slotAt 1 with entry := entry 160 21 kindExchange 0 0 }
    attempt := some { inReply .checkLow with kind := kindExchange } }

theorem test_hyps_SendSequenceChangesOnlyWithOk :
    (∀ k, ((lineState 296 exchangeEnd).engine k).Legal) ∧ ¬ isReset (.receivedCharacter .a 0x34 false false)
    ∧ ∃ t, exec (.receivedCharacter .a 0x34 false false) (lineState 296 exchangeEnd) = .next t
      ∧ (t.station .a 20).s ≠ ((lineState 296 exchangeEnd).station .a 20).s := by
  refine ⟨?_, by simp [isReset], _, rfl, by decide +kernel⟩
  intro k; cases k
  · show exchangeEnd.Legal
    simp [Engine.Legal, exchangeEnd, lineA, Engine.reset, Engine.inFlight, slotAt, slotOf, Engine.exchange, Slot.exchange, inReply, attemptAt,
      slotTwo, entry, Slot.isOpen, Slot.kindSent, Entry.zero, kindOpen, kindBroadcast, kindExchange, kindWrite, kindResync, requiredLength]
  · exact reset_legal

theorem test_hyps_StationAndImageCommands :
    (lineArg 2 = none ∧ stationIx 0 = none ∧ stationIx 63 = none)
    ∧ (lineArg 1 = some .b ∧ stationIx 1 = some 0 ∧ stationIx 62 = some 61)
    ∧ ((inHealth .parked 0).health = .parked ∧ (inHealth .offline 1).health ≠ .parked)
    ∧ 64 ≤ (64 : Byte).toNat ∧ (63 : Byte).toNat = (63 : Fin 64).val ∧ (0 : Byte).toNat = (0 : Fin 64).val := by decide

theorem test_hyps_StationsStayLegal : State.reset.StationsLegal ∧ ∃ t, step State.reset = .next t := by
  refine ⟨?_, _, rfl⟩
  intro l
  have h : State.reset.engine l = Engine.reset := by cases l <;> rfl
  refine ⟨by rw [h]; unfold Engine.SettingsLegal; decide, ?_⟩
  intro i
  have k : State.reset.station l i = Station.reset := by cases l <;> simp [State.reset, State.station, Two.get]
  rw [k]; unfold Station.Legal; decide

/-- A mailbox in a state. -/
def mailboxIn (state : MailboxState) (current next : Option (Fin 72)) (fresh : Bool) : Mailbox :=
  { Mailbox.reset with state := state, current := current, next := next, fresh := fresh }

theorem test_hyps_MailboxCommandsFollowTheState :
    48 ≤ (48 : Byte).toNat ∧ (47 : Byte).toNat = (47 : Fin 48).val ∧ (0 : Byte).toNat = (0 : Fin 48).val
    ∧ (State.reset.mailboxes[(47 : Fin 48)].state = .empty)
    ∧ (claimedFive.mailboxes[(5 : Fin 48)].state = .claimedNext ∧ claimedFive.mailboxes[(5 : Fin 48)].current = some 1)
    ∧ (after .release claimedFive).mailboxes[(5 : Fin 48)].state = .full
    ∧ ((after .claim (after .release claimedFive)).mailboxes[(5 : Fin 48)].state = .claimed
      ∧ (after .claim (after .release claimedFive)).mailboxes[(5 : Fin 48)].current = some 3) := by decide +kernel

theorem test_hyps_PublishFollowsTheMailbox :
    (Mailbox.reset.state = .empty)
    ∧ (let m := mailboxIn .full (some 3) none true; m.state = .full ∧ m.current = some 3 ∧ m.Legal)
    ∧ (let m := mailboxIn .claimed (some 3) none false; m.state = .claimed ∧ m.Legal)
    ∧ (let m := mailboxIn .claimedNext (some 3) (some 4) false; m.state = .claimedNext ∧ m.next = some 4 ∧ m.Legal) := by
  simp [mailboxIn, Mailbox.reset, Mailbox.Legal]

theorem test_hyps_EveryBufferStaysInOnePlace : State.reset.BuffersLegal ∧ ∃ t, step State.reset = .next t := by
  refine ⟨⟨?_, ?_, ?_⟩, _, rfl⟩
  · have : State.reset.bufferPlaces = List.finRange 72 := by decide +kernel
    rw [this]
  · intro l; cases l <;> exact reset_legal
  · intro m; simp [State.reset, Mailbox.Legal, Mailbox.reset]

/-! ### Events, images, requests -/

theorem test_hyps_PopDeliversTheDropCount :
    State.reset.events.entries = [] ∧ (queueOf 32).load ≤ 32 ∧ (queueOf 32).drops = 0 ∧ fullQueue.load ≤ 32 ∧ fullQueue.drops ≠ 0
    ∧ ∃ e rest, fullQueue.entries = e :: rest := ⟨rfl, by decide, rfl, by decide, by decide, _, _, rfl⟩

theorem test_hyps_QueuesStayInBounds :
    State.reset.QueuesLegal ∧ (∃ t, step State.reset = .next t)
    ∧ (queueOf 31).load < 32 ∧ 32 ≤ (queueOf 32).load ∧ (254 : Byte).toNat < 255 := by
  refine ⟨⟨by decide, ?_, ?_, ?_, ?_, ?_⟩, ⟨_, rfl⟩, by decide, by decide, by decide⟩
  · intro l; cases l <;> rfl
  · intro l; cases l <;> decide
  · intro l; cases l <;> simp [State.reset, Two.get, AcyclicStore.reset]
  · intro l q; cases l <;> simp [State.reset, State.engine, Two.get, Engine.reset]
  · intro l; cases l <;> exact reset_legal

/-- R146: an append at 32 entries and reservations places nothing, and the drop count stays at 255. -/
theorem test_append_saturates :
    (({ queueOf 32 with drops := 255 } : EventQueue).append { kind := .syncLost }).drops = 255
    ∧ (({ queueOf 32 with drops := 254 } : EventQueue).append { kind := .syncLost }) = { queueOf 32 with drops := 255 } := by decide

theorem test_hyps_LiveCopyAndGenerationChangeTogether :
    (¬ isReset .publishImage
      ∧ (after .publishImage (withArgs imageState 20 0)).images.images[(20 : Fin 64)].generation ≠ imageState.images.images[(20 : Fin 64)].generation)
    ∧ (¬ isReset (.winDataWrite 5)
      ∧ (after (.winDataWrite 5) { imageState with host := { HostPort.reset with ptr := 0x2280 } }).images.images[(20 : Fin 64)].staged
        ≠ imageState.images.images[(20 : Fin 64)].staged) := by
  refine ⟨⟨by simp [isReset], by decide +kernel⟩, by simp [isReset], by decide +kernel⟩

theorem test_hyps_PostAndCancelFollowTheirOrder :
    lineArg 2 = none ∧ lineArg 0 = some .a
    ∧ (4 ≤ [tag8, tag9, tag9, tag9].length ∧ [tag8, tag9, tag9].length < 4)
    ∧ (tag7.Passes ∧ ¬ ({ tag7 with retryLimit := 4 } : Descriptor).Passes ∧ ({ tag7 with retryLimit := 3 } : Descriptor).Passes)
    ∧ ([tag8, tag9, tag9] = [tag8] ++ tag9 :: [tag9] ∧ tag9.tag = 9 ∧ ∀ x ∈ [tag8], x.tag ≠ 9)
    ∧ ∀ x ∈ [tag8, tag9], x.tag ≠ 7 := by
  refine ⟨rfl, rfl, by decide, ?_, ⟨rfl, rfl, by decide⟩, by decide⟩
  unfold Descriptor.Passes
  exact ⟨by decide, by decide, by decide⟩

theorem openState_legal (cycle value budgetEnd : Half) (queue : List Descriptor) :
    ((openState cycle value budgetEnd queue).engine .a).Legal := by
  simp [Engine.Legal, openState, State.engine, Two.get, lineA, Engine.reset, Engine.inFlight, openSlot, slotOf, entry, Slot.isOpen, kindOpen,
    Entry.zero]

theorem test_hyps_AcyclicStartSendsOrIsNotReady :
    (let s := openState 11 480 520 [tag9];
      s.inReset = false ∧ (s.engine .a).Legal ∧ (s.engine .a).state = .wait ∧ (s.engine .a).slot = some (openSlot 11 520)
      ∧ (openSlot 11 520).isOpen = true ∧ (s.engine .a).request = none ∧ (s.acyclic.get .a).queue = [tag9]
      ∧ s.events.load < 32 ∧ 1 ≤ tag9.reservation.toNat ∧ (openSlot 11 520).noticeHeld = true
      ∧ s.timer.value.toNat + tag9.reservation.toNat ≤ (openSlot 11 520).budgetEnd.toNat ∧ Sendable s .a tag9)
    ∧ timeRemaining (openState 11 481 520 [tag9]) (openSlot 11 520) < tag9.reservation.toNat
    ∧ ¬ Sendable (openState 11 400 520 [tag8]) .a tag8
    ∧ (32 ≤ (queueOf 32).load ∧ (queueOf 31).load < 32)
    ∧ ((inAttempt .await (attemptAt 5)).state ≠ .wait ∧ lineA.slot.any (·.isOpen) = false ∧ serving.request.isSome = true) := by
  refine ⟨⟨rfl, openState_legal .., rfl, rfl, by decide, rfl, rfl, by decide, by decide, rfl, by decide, ?_⟩, by decide, ?_, by decide,
    by decide, rfl, rfl⟩
  · intro i hi
    have : i = 16 := by
      have h : stationIx tag9.station = some 16 := by decide
      rw [h] at hi; exact (Option.some.inj hi).symm
    subst this
    have h : ((openState 11 480 520 [tag9]).station .a 16).health = .online := by decide +kernel
    simp only [h]
  · intro h
    have := h 11 (by decide)
    have k : ((openState 11 400 520 [tag8]).station .a 11).health = .unknown := by decide +kernel
    simp only [k] at this
    revert this; decide

/-- Line A at the end of the STATUS of tag 9. -/
def servingState (value : Half) (q : EventQueue) : State :=
  let s := openState 11 value 520 []
  { s with lines := ⟨serving, Engine.reset⟩, events := q }

theorem test_hyps_JudgedReplyCompletesTheRequest :
    (let s := servingState 503 { queueOf 29 with reserved := ⟨true, false⟩ };
      s.inReset = false ∧ (s.engine .a).state = .receive ∧ (s.engine .a).attempt = serving.attempt ∧ (s.engine .a).Legal
      ∧ (s.engine .a).request = some { desc := tag9, cycle := 11, index := 3, attempts := 1 }
      ∧ (s.engine .a).slot = some (openSlot 11 520) ∧ (s.engine .a).held = some 6 ∧ Receives s .a .elsewhere s.timer.capture
      ∧ s.events.load + 2 ≤ 32 ∧ s.events.reserved.get .a = true)
    ∧ serving.attempt.any (fun a => a.reply.any (fun r => (judgeNext a r (plain 0x34) == .whole .ok r)
        && judgeNext a { r with refuse := true } (plain 0x34) == .whole .refused { r with refuse := true })) = true
    ∧ serving.attempt.any (·.arrival.isSome) = true ∧ stationIx 17 = some 16 := by
  refine ⟨⟨rfl, rfl, rfl, serving_legal, rfl, rfl, rfl, .inr ⟨rfl, by decide, rfl, rfl⟩, by decide, rfl⟩, by decide +kernel, rfl, by decide⟩

/-! ### Host Port, protocol, lines -/

/-- A part with the pointer at a window address. -/
def pointing (s : State) (address : Half) : State := { s with host := { s.host with ptr := address } }

theorem test_hyps_WindowReadsLatchAndMoveOn :
    (∀ n : Half, n = 0x0804 ∨ n = 0x08FF ∨ n = 0x13F0 ∨ n = 0x5033 ∨ n = 0x606B ∨ n = 0xFFFF → winTarget n = .unmapped)
    ∧ winTarget 0x4150 = .mailboxHeader 5 0 ∧ winTarget 0x416F = .mailboxPayload 5 15
    ∧ (State.reset.mailboxes[(5 : Fin 48)].state = .empty ∧ claimedFive.mailboxes[(5 : Fin 48)].state = .claimedNext
      ∧ claimedFive.mailboxes[(5 : Fin 48)].current = some 1)
    ∧ (∀ n : Half, n = 0x0918 ∨ n = 0x091F ∨ n = 0x1150 ∨ n = 0x115F ∨ n = 0x4000 ∨ n = 0x500F →
        (recordAt State.reset (winTarget n)).isSome = true)
    ∧ ((recordAt State.reset (winTarget 0x1150)).map (·.2.2) = some 0 ∧ (recordAt State.reset (winTarget 0x115F)).map (·.2.2) = some 15)
    ∧ State.reset.events.entries = [] := by
  refine ⟨?_, by decide +kernel, by decide +kernel, by decide +kernel, ?_, by decide +kernel, rfl⟩
  · rintro n (h | h | h | h | h | h) <;> subst h <;> decide +kernel
  · rintro n (h | h | h | h | h | h) <;> subst h <;> decide +kernel

/-- Places of every sort whose byte is neither latched nor moved by its read, and both places of a pending schedule that a copy fills. -/
theorem test_hyps_WindowReadsLatchAndMoveOn_bytes :
    (∀ n : Half, n = 0x0000 ∨ n = 0x03FF ∨ n = 0x0800 ∨ n = 0x0801 ∨ n = 0x0400 ∨ n = 0x0803 ∨ n = 0x2000 ∨ n = 0x3000 ∨ n = 0x307F ∨ n = 0x5010
        ∨ n = 0x5032 ∨ n = 0x6000 ∨ n = 0x606A ∨ n = 0x6100 ∨ n = 0x617F → (byteAt State.reset (winTarget n)).isSome = true)
    ∧ byteAt claimedFive (winTarget 0x4150) = some 0
    ∧ (let s := after .copyActive State.reset; s.schedule.copy.isSome = true ∧ byteAt s (winTarget 0x0000) = none) := by
  refine ⟨?_, by decide +kernel, by decide +kernel⟩
  rintro n (h | h | h | h | h | h | h | h | h | h | h | h | h | h | h) <;> subst h <;> decide +kernel

theorem test_hyps_WindowReadsLatchAndMoveOn_places :
    stationIx 1 = some 0 ∧ stationIx 62 = some 61 ∧ stationIx 0 = none ∧ stationIx 63 = none
    ∧ (15 < 16 ∧ 42 < 43 ∧ 31 < 32 ∧ 2 < 3) := by decide

theorem test_hyps_WindowWritesObeyTheirRegions :
    winTarget 0x0000 = .pendingEntry .a 0 0 ∧ winTarget 0x03FF = .pendingEntry .b 31 15 ∧ winTarget 0x0801 = .pendingCount .b
    ∧ ((storeIn .armed).schedule.changeover ≠ .none ∧ (after .copyActive State.reset).schedule.copy.isSome = true)
    ∧ (State.reset.schedule.changeover = .none ∧ State.reset.schedule.copy.isSome = false)
    ∧ winTarget 0x27FF = .staged 63 31 ∧ winTarget 0x606A = .staging .b 42
    ∧ winTarget 0x2800 = .live 0 0 ∧ winTarget 0x5010 = .eventPayload 0 ∧ winTarget 0x6180 = .unmapped := by decide +kernel

theorem test_hyps_HostRegistersAndInterrupts :
    State.reset.inReset = false ∧ commandOfCode 0x00 = none ∧ commandOfCode 0x04 = none
    ∧ ownRowOfWrite 0x00 1 = none ∧ ownRowOfWrite 0x06 1 = none ∧ ownRowOfWrite 0x3E 1 = none
    ∧ ownRowOfWrite 0x02 1 = some (.hostStatusWrite 1) ∧ ownRowOfWrite 0x05 0x7F = some .softReset
    ∧ State.reset.pool.free.length ≤ 72 ∧ State.reset.events.entries.length ≤ 32
    ∧ (inAttempt .await (attemptAt 5)).slot = some (slotAt 1) ∧ lineA.slot = none := by decide +kernel

theorem test_hyps_RefusalsLeaveThePartAsItWas :
    (State.reset.host.cmdRefused = false ∧ (after .release State.reset).host.cmdRefused = true)
    ∧ (commandOfCode 0x41 = some .release ∧ (after .release State.reset).host.status ≠ .accepted)
    ∧ (let s := after .release State.reset; (after .release s).host.status ≠ .accepted ∧ (after .claim s).host.cmd = 0x40
      ∧ (after .unmarkAll s).host.status = .accepted ∧ (after .unmarkAll s).host.cmdRefused = true)
    ∧ (after (.registerWrite 0x06 7) State.reset).host.arg0 ≠ State.reset.host.arg0
    ∧ (after (.registerWrite 0x07 7) State.reset).host.arg1 ≠ State.reset.host.arg1 := by decide +kernel

/-- The outcome that the characters of a whole reply lead to. -/
def judged (a : Attempt) (chars : List RxChar) : Option Outcome :=
  match chars with
  | [] => none
  | c :: rest =>
    match judgeFrom a (judgeHead a c) rest with
    | .whole o _ => some o
    | .failed o => some o
    | .more _ _ => none

theorem test_hyps_CheckedFramesCheckToZero :
    (List.replicate 32 (0xFF : Byte)).length ≤ 32 ∧ ([] : List Byte).length ≤ 32 := by decide

theorem test_hyps_RepliesAreAcceptedExactlyWhenConforming :
    (attemptAt 5).kind.toNat % 16 ≠ 0
    ∧ judged (attemptAt 5) (frameChars (replyBytes 21 kindRead false 2 [1, 2, 3, 4])) = some .ok
    ∧ judged (attemptAt 5) (frameChars (replyBytes 21 0 true 2 [7])) = some .refused
    ∧ judged (attemptAt 5) (frameChars (replyBytes 21 kindRead false 2 [1, 2, 3])) = some .length
    ∧ judged { attemptAt 5 with kind := kindWrite, expected := 255 } (frameChars (replyBytes 21 kindWrite true 2 [])) = some .sequence
    ∧ ∀ c ∈ (frameChars (replyBytes 21 kindRead false 2 [])).take 1, c.head = true := by decide +kernel

theorem test_hyps_TrafficOnOneLineLeavesTheOther :
    lineOf (.slotBegin .b) = some .b ∧ lineOf (.rxReturnedTo1 .a) = some .a
    ∧ ∃ t, exec (.slotBegin .a) (lineState 160 { lineA with next := some slotTwo }) = .next t := ⟨rfl, rfl, _, rfl⟩

/-! ### The clock -/

/-- Line A's example settings, in a state with counters of its own, its character in reception and its pin. -/
def clocked (state : EngineState) (sampleClock elapsed idle : Nat) (e : Engine) : Engine :=
  { e with state := state, sampleClock := sampleClock, elapsed := elapsed, idle := idle }

/-- Section 1.10: line A at divisor 9, with the divisor, the gaps and the reply window in their ranges. -/
theorem clocked_legal (state : EngineState) (a b c : Nat) (e : Engine)
    (h : e = lineA ∨ e = inAttempt .transmit (attemptAt 4) ∨ e = inAttempt .await (attemptAt 5)) :
    (clocked state a b c e).SpansLegal := by
  rcases h with h | h | h <;> subst h <;>
    simp [Engine.SpansLegal, Engine.SettingsLegal, clocked, lineA, Engine.reset, inAttempt, attemptAt]

theorem test_hyps_PeriodsCountAndSample :
    ((running 7 200).inReset = false ∧ (running 7 200).pending = [] ∧ (running 7 200).Settled)
    ∧ (let s := running 7 200; { s with timer := { s.timer with subTick := 16 } } : State).timer.cycleRunning = true
    ∧ Actor.timer.due (let s := running 7 200; { s with timer := { s.timer with subTick := 16 } }) = true
    ∧ Actor.sync.due (let s := following .locked 1 300; { s with inputs := { s.inputs with sync := { level := false, upcoming := [] } } }) = true
    ∧ (let c := { (storeIn .checking).schedule with age := 160 }; c.changeover = .checking ∧ 160 ≤ c.age)
    ∧ ((after .copyActive State.reset).schedule.changeover ≠ .checking ∧ (after .copyActive State.reset).schedule.copy.isSome = true) := by
  refine ⟨⟨rfl, rfl, ?_⟩, by decide, by decide, by decide, ⟨rfl, by decide⟩, by decide +kernel⟩
  unfold State.Settled; decide +kernel

/-- A sample due and not due; each span run out and not: 160 periods a bit, a frame gap of 4, a character gap of 4, a window of 40. -/
theorem test_hyps_PeriodsCountAndSample_spans :
    (9 + 1 ≤ (clocked .wait 10 0 0 lineA).sampleClock ∧ (clocked .wait 9 0 0 lineA).sampleClock < 9 + 1)
    ∧ (clocked .gap 0 640 0 lineA).SpanOver ∧ ¬ (clocked .gap 0 639 0 lineA).SpanOver
    ∧ (clocked .await 0 6400 0 (inAttempt .await (attemptAt 5))).SpanOver
    ∧ ¬ (clocked .await 0 6399 0 (inAttempt .await (attemptAt 5))).SpanOver
    ∧ (clocked .receive 0 640 0 lineA).SpanOver ∧ (clocked .quiet 0 0 640 lineA).SpanOver
    ∧ ({ clocked .transmit 0 0 0 lineA with tx := some { byte := 0, head := true, clock := 1760 } } : Engine).SpanOver
    ∧ (clocked .wait 10 0 0 lineA).SpansLegal := by
  simp only [Engine.SpanOver, clocked, lineA, inAttempt, attemptAt, Engine.bitTime, Engine.samplePeriod]
  refine ⟨by decide, by decide, by decide, ⟨_, rfl, rfl, by decide⟩, ?_, ⟨rfl, by decide⟩, .inl (by decide), ⟨_, rfl, by decide⟩,
    clocked_legal _ _ _ _ _ (.inl rfl)⟩
  rintro ⟨a, h, -, k⟩; cases h; revert k; decide

/-- The engine's receiver has just seen a start edge. -/
def edgeNow (e : Engine) : Engine := { receiving e .elsewhere with idle := 0 }

/-- Line A at the offset of A/2, which the tick before has reached, with a start edge of the same moment. -/
def owedSlot : State :=
  let s := beginState 160 (entry 160 21 kindRead 0 0) (inHealth .online 0)
  s.setEngine .a (edgeNow (s.engine .a))

theorem test_hyps_PeriodsCountAndSample_owed :
    owedSlot.inReset = false ∧ owedSlot.pending = [] ∧ Reached owedSlot .a (notice 30) slotTwo ∧ owes (otherLine .a) owedSlot = false
    ∧ (after (.slotBegin .a) owedSlot).Settled := by
  refine ⟨rfl, rfl, ⟨?_, rfl, rfl, rfl, rfl, by decide⟩, by decide +kernel, ?_⟩
  · simp [Engine.Legal, owedSlot, edgeNow, receiving, beginState, State.engine, State.setEngine, State.withLines, Two.set, Two.get, lineState,
      lineA, Engine.reset, Engine.inFlight]
  · unfold State.Settled; decide +kernel

/-- R13: an edge at the beginning of the head's start bit lies in the head, whether a slot's offset or the end of a frame gap begins it. -/
theorem test_edge_with_head :
    (((clockPeriod owedSlot).engine .a).rx.char.map (·.place) = some (.sending 0))
    ∧ (let e := { afterTimeout with sampleClock := 9, elapsed := 639, rx := { prev := some true, char := none } };
      let s := lineState 210 e;
      let t := clockPeriod { s with inputs := { s.inputs with rx := s.inputs.rx.set .a { level := true, upcoming := [false] } } };
      (t.engine .a).state = .transmit ∧ (t.engine .a).rx.char.map (·.place) = some (.sending 0)) := by
  decide +kernel

/-- R3, section 1.10: a falling edge begins a character; sixteenth 10 of the start bit decides a false start; the stop bit completes. -/
theorem test_sampleLine :
    (let s := lineState 200 { lineA with rx := { prev := some true, char := none } };
      ((sampleLine .a { s with inputs := { s.inputs with rx := s.inputs.rx.set .a { level := true, upcoming := [false] } } }).engine .a).rx.char.isSome
        = true)
    ∧ (let p : RxProgress :=
        { place := .elsewhere, capture := (running 30 200).timer.capture, count := 169, votes := [true, true]
          bits := [false, true, false, false, false, false, false, false, false, true] };
      let s := lineState 200 { lineA with rx := { prev := some false, char := some p } };
      ((sampleLine .a { s with inputs := { s.inputs with rx := s.inputs.rx.set .a { level := true, upcoming := [] } } }).engine .a).strays
        = 1) := by
  decide +kernel

end Sys2Proof.Tests
end

section
/-! The check calculation and the bytes of a request (chapter 1). -/

namespace Sys2Proof.Machine

/-! ## The check calculation (R5) -/

/-- A bit of a value formed of two bytes. -/
theorem getLsbD_twoBytes (high low : Byte) (i : Nat) :
    (high ++ low : Half).getLsbD i = if i < 8 then low.getLsbD i else high.getLsbD (i - 8) :=
  BitVec.getLsbD_append ..

theorem crcBit_eq_checkBit (c : Half) (b : Bool) : crcBit c b = checkBit c b := by
  unfold crcBit checkBit
  rw [BitVec.msb_eq_getLsbD_last]
  by_cases h : c.getLsbD 15 = b
  · simp only [h, bne_self_eq_false, Bool.false_eq_true, if_false, if_true]; exact BitVec.xor_zero
  · simp only [bne_iff_ne.mpr h, if_true, if_neg h]

/-- The bits of a byte, from bit 7 down. -/
theorem bitsOf_eq (x : Byte) :
    bitsOf x = [x.getLsbD 7, x.getLsbD 6, x.getLsbD 5, x.getLsbD 4, x.getLsbD 3, x.getLsbD 2, x.getLsbD 1, x.getLsbD 0] := rfl

theorem crc_append_byte (bytes : List Byte) (b : Byte) : crc (bytes ++ [b]) = crcByte (crc bytes) b := by
  simp [crc]

/-- Two bytes are divided as the sixteen bits of the 16-bit value they form. -/
theorem crc_append_two (body : List Byte) (high low : Byte) :
    crc (body ++ [high, low]) = ((List.range 16).map (high ++ low : Half).getMsbD).foldl crcBit (crc body) := by
  have bits : (List.range 16).map (high ++ low : Half).getMsbD = bitsOf high ++ bitsOf low := by
    simp only [bitsOf_eq, List.range_succ, List.range_zero, List.nil_append, List.cons_append, List.map_cons, List.map_nil,
      BitVec.getMsbD_eq_getLsbD, getLsbD_twoBytes]
    rfl
  rw [bits, List.foldl_append]
  simp [crc, crcByte]

/-- A value divided by its own leading bits is shifted out: no step takes the generator (R5). -/
theorem foldl_crcBit_own (c : Half) (n : Nat) : ((List.range n).map c.getMsbD).foldl crcBit c = c <<< n := by
  induction n with
  | zero => simp
  | succ n ih =>
    have top : (c <<< n).msb = c.getMsbD n := by simp [BitVec.msb]
    rw [List.range_succ, List.map_append, List.foldl_append, ih]
    simp [crcBit, top, BitVec.shiftLeft_add]

/-- One bit of the division loses nothing: bit 0 of the result tells whether the generator was taken. -/
theorem crcBit_injective (b : Bool) : Function.Injective (crcBit · b) := by
  intro c d h
  have low : ∀ x : Half, (crcBit x b).getLsbD 0 = (x.msb != b) := by
    intro x; unfold crcBit; by_cases hx : x.msb = b <;> simp [hx]
  have hb : (c.msb != b) = (d.msb != b) := by rw [← low, ← low]; exact congrArg (·.getLsbD 0) h
  have hmsb : c.msb = d.msb := by simpa using hb
  have hshift : c <<< 1 = d <<< 1 := by simpa [crcBit, hmsb] using h
  apply BitVec.eq_of_getLsbD_eq
  intro i hi
  by_cases hi' : i = 15
  · subst hi'; simpa only [BitVec.msb_eq_getLsbD_last] using hmsb
  · have next := congrArg (·.getLsbD (i + 1)) hshift
    simpa only [BitVec.getLsbD_shiftLeft, show i + 1 < 16 by omega, decide_true, Nat.add_sub_cancel, Bool.true_and,
      show ¬ i + 1 < 1 by omega, decide_false, Bool.not_false] using next

theorem foldl_crcBit_injective (bits : List Bool) : Function.Injective (bits.foldl crcBit ·) := by
  induction bits with
  | nil => exact Function.injective_id
  | cons b bits ih => exact ih.comp (crcBit_injective b)

/-- Only the right check bytes bring the division to 0 (R5). -/
theorem crc_append_check_iff (body : List Byte) (high low : Byte) :
    crc (body ++ [high, low]) = 0 ↔ high ++ low = crc body := by
  have own : ((List.range 16).map (high ++ low : Half).getMsbD).foldl crcBit (high ++ low) = 0 := by
    rw [foldl_crcBit_own]; exact BitVec.shiftLeft_eq_zero (by decide)
  rw [crc_append_two, ← own]
  exact ((foldl_crcBit_injective _).eq_iff).trans eq_comm

theorem highByte_append_lowByte (h : Half) : highByte h ++ lowByte h = h := by
  apply BitVec.eq_of_getLsbD_eq
  intro i hi
  rw [getLsbD_twoBytes]
  by_cases h8 : i < 8
  · simp [h8, lowByte]
  · simp [h8, highByte, show i - 8 < 8 by omega, show 8 + (i - 8) = i by omega]

theorem highByte_eq_extract (h : Half) : highByte h = h.extractLsb' 8 8 :=
  BitVec.eq_of_toNat_eq (by simp [highByte])

/-! ## Requests (R4) -/

/-- The destination stands in bits 0 to 5 of the head, whatever the sequence bit above it. -/
theorem requestHead_low (station : Byte) (seqBit : Bool) : (requestHead station seqBit).setWidth 6 = station.setWidth 6 := by
  unfold requestHead
  apply BitVec.eq_of_getLsbD_eq
  intro i hi
  have mask : (0x3F : Byte).getLsbD i = true := by interval_cases i <;> rfl
  have above : (0x80 : Byte).getLsbD i = false := by interval_cases i <;> rfl
  have zero : (0 : Byte).getLsbD i = false := BitVec.getLsbD_zero
  rw [BitVec.getLsbD_setWidth, BitVec.getLsbD_setWidth, BitVec.getLsbD_or, BitVec.getLsbD_and, mask]
  cases seqBit <;> simp only [above, zero, if_true, if_false, Bool.false_eq_true, Bool.and_true, Bool.or_false]

theorem requestHead_high (station : Byte) (seqBit : Bool) :
    (requestHead station seqBit).getLsbD 6 = false ∧ (requestHead station seqBit).getLsbD 7 = seqBit := by
  cases seqBit <;> simp [requestHead]

/-- The bytes of a request (R4). -/
theorem requestFrame_bytes (station kind : Byte) (seqBit : Bool) (payload : List Byte) :
    requestFrame station kind seqBit payload =
      [requestHead station seqBit, kind &&& 0x0F, BitVec.ofNat 8 payload.length] ++ payload
        ++ [highByte (crc ([requestHead station seqBit, kind &&& 0x0F, BitVec.ofNat 8 payload.length] ++ payload)),
            lowByte (crc ([requestHead station seqBit, kind &&& 0x0F, BitVec.ofNat 8 payload.length] ++ payload))] := rfl

theorem isSequenced_iff (kind : Byte) :
    isSequenced kind = true ↔ kind = 2 ∨ kind = 3 ∨ (8 ≤ kind.toNat ∧ kind.toNat ≤ 15) := by
  simp [isSequenced, kindWrite, kindExchange, isUser, or_assoc]

theorem sendsOutputs_iff (kind : Byte) :
    sendsOutputs kind = true ↔ kind = 2 ∨ kind = 3 ∨ kind = 6 ∨ (8 ≤ kind.toNat ∧ kind.toNat ≤ 15) := by
  rw [sendsOutputs, Bool.or_eq_true, isSequenced_iff]
  simp only [kindBroadcast, beq_iff_eq]
  tauto

theorem requestsAreComposed : RequestsAreComposed := by
  refine ⟨fun station kind seqBit payload hlen => ?_, fun kind => ⟨isSequenced_iff kind, sendsOutputs_iff kind⟩,
    rfl, rfl, rfl, rfl, rfl, rfl, rfl⟩
  refine ⟨_, _, _, _, requestFrame_bytes station kind seqBit payload, ?_, (requestHead_high station seqBit).1,
    (requestHead_high station seqBit).2, ?_, ?_, highByte_append_lowByte _⟩
  · simpa using congrArg BitVec.toNat (requestHead_low station seqBit)
  · simpa using Nat.and_two_pow_sub_one_eq_mod kind.toNat 4
  · simp; omega

/-- Settles O57: the division is one-to-one in its starting value, and a value divided by itself is shifted out. -/
theorem checkedFramesCheckToZero : Obligations.CheckedFramesCheckToZero := by
  refine ⟨requestsAreComposed, ⟨rfl, fun bytes b => ?_⟩, fun _ => ?_, fun body => ?_, crc_append_check_iff,
    by decide +kernel, by decide +kernel⟩
  · have step : crcBit = checkBit := funext fun c => funext fun x => crcBit_eq_checkBit c x
    rw [crc_append_byte, crcByte, bitsOf_eq, step]
  · rw [checked, highByte_eq_extract]; rfl
  · exact (crc_append_check_iff ..).mpr (highByte_append_lowByte _)

end Sys2Proof.Machine
end

section
/-! The rows of a line's traffic: what each row answers, how attempts fail, and characters received. -/

namespace Sys2Proof.Machine

/-! ## The rows of a line's traffic

What each row answers while the part runs: its event's function (R165). -/

section Rows

variable {s : State} (h : s.inReset = false) (l : Line)
include h

theorem exec_characterTransmitted : exec (.characterTransmitted l) s = .next (characterSent l s) := by
  rw [← State.event_run h (characterSent l)]; rfl

theorem exec_startEdge : exec (.startEdge l) s = .next (startEdge l s) := by
  rw [← State.event_run h (startEdge l)]; rfl

theorem exec_rxReturnedTo1 : exec (.rxReturnedTo1 l) s = .next (rxReturned l s) := by
  rw [← State.event_run h (rxReturned l)]; rfl

theorem exec_falseStart : exec (.falseStart l) s = .next (falseStart l s) := by
  rw [← State.event_run h (falseStart l)]; rfl

theorem exec_receivedCharacter (byte : Byte) (head framing : Bool) :
    exec (.receivedCharacter l byte head framing) s =
      .next (completeCharacter l { byte := byte, head := head, framing := framing } (startEdge l s)) := by
  rw [← State.event_run h fun t => completeCharacter l { byte := byte, head := head, framing := framing } (startEdge l t)]; rfl

theorem exec_replyWindowExpiry : exec (.replyWindowExpiry l) s = .next (windowExpiry l s) := by
  rw [← State.event_run h (windowExpiry l)]; rfl

theorem exec_characterGapExpiry : exec (.characterGapExpiry l) s = .next (charGapExpiry l s) := by
  rw [← State.event_run h (charGapExpiry l)]; rfl

theorem exec_quietLimitExpiry : exec (.quietLimitExpiry l) s = .next (endQuiet l s) := by
  rw [← State.event_run h (endQuiet l)]; rfl

/-- A line held at 0 is not idle (R11). -/
theorem exec_quietIdleExpiry_held (hp : (s.engine l).rx.prev = some false) : exec (.quietIdleExpiry l) s = .next s := by
  have run : exec (.quietIdleExpiry l) s = .next (if (s.engine l).rx.prev = some false then s else endQuiet l s) := by
    rw [← State.event_run h fun t => if (t.engine l).rx.prev = some false then t else endQuiet l t]; rfl
  rw [run, if_pos hp]

theorem exec_quietIdleExpiry (hp : (s.engine l).rx.prev ≠ some false) : exec (.quietIdleExpiry l) s = .next (endQuiet l s) := by
  have run : exec (.quietIdleExpiry l) s = .next (if (s.engine l).rx.prev = some false then s else endQuiet l s) := by
    rw [← State.event_run h fun t => if (t.engine l).rx.prev = some false then t else endQuiet l t]; rfl
  rw [run, if_neg hp]

theorem exec_frameGapEnd : exec (.frameGapEnd l) s = .next (frameGapEnd l s) := by
  rw [← State.event_run h (frameGapEnd l)]; rfl

theorem exec_slotBegin : exec (.slotBegin l) s = .next (slotBegin l s) := by
  rw [← State.event_run h (slotBegin l)]; rfl

end Rows

/-! ## Ends of attempts -/

theorem State.setEngine_setStation (s : State) (l k : Line) (e : Engine) (i : Fin 62) (r : Station) :
    (s.setStation k i r).setEngine l e = (s.setEngine l e).setStation k i r := rfl

/-- An attempt that ends with a failed outcome leaves the state that failedAttempt names (R72, R77, R95). -/
theorem endAttempt_eq_failedAttempt {s : State} {l : Line} {a : Attempt} {o : Outcome} (ha : (s.engine l).attempt = some a)
    (ho : o.Failed) : endAttempt l o s = failedAttempt s l a o := by
  rw [endAttempt_failed ha ho]
  unfold failedAttempt
  by_cases hb : a.kind = kindBroadcast
  · simp only [hb, if_true]
    cases stationIx a.station <;> rfl
  · simp only [hb, if_false, reportAttempt]
    cases stationIx a.station with
    | none => rfl
    | some i =>
      rcases ho.counted with rfl | ⟨ht, hc⟩
      · simp [Station.attempt, State.setEngine_setStation]
      · simp [Station.attempt, ht, hc, State.setEngine_setStation]

/-- What the receiver has taken in of an attempt's reply does not bear on how the attempt fails. -/
theorem failedAttempt_attempt {s : State} {l : Line} {a a' : Attempt} {o : Outcome} (e : Engine) (x y : Option Attempt)
    (hs : a'.station = a.station) (hk : a'.kind = a.kind) :
    failedAttempt (s.setEngine l { e with attempt := x }) l a' o = failedAttempt (s.setEngine l { e with attempt := y }) l a o := by
  unfold failedAttempt
  simp only [State.setEngine_same, State.setEngine_setEngine, State.setEngine_station, hs, hk]

/-! ## Characters received -/

/-- The engine's part in a character that completes now, wherever its reception began (R3, log 9). -/
theorem exec_receivedCharacter_handled {s : State} {l : Line} {place : EdgePlace} {captured : Capture} (h : s.inReset = false)
    (hoff : (s.engine l).state ≠ .off) (hr : Receives s l place captured) (c : RxChar) :
    ∃ p : RxProgress, p.place = place ∧ p.capture = captured ∧
      exec (.receivedCharacter l c.byte c.head c.framing) s =
        .next (handleCharacter l p c (s.setEngine l ((s.engine l).received c.framing))) := by
  rcases hr with ⟨p, hp, hplace, hcap⟩ | ⟨hc, hprev, hplace, hcap⟩
  · exact ⟨p, hplace, hcap, by rw [exec_receivedCharacter h, received_begun c hp]; rfl⟩
  · exact ⟨_, hplace.symm, hcap.symm, by rw [exec_receivedCharacter h, received_whole c hc hprev hoff]; rfl⟩

end Sys2Proof.Machine
end

section
/-! The judgement of a reply's characters (R9, R10). -/

namespace Sys2Proof.Machine

/-! ## The judgement of a reply's characters (R9, R10) -/

/-- The kind code of a byte, as a number. -/
theorem lowNibble_eq_iff (x y : Byte) : x.extractLsb' 0 4 = y.extractLsb' 0 4 ↔ x.toNat % 16 = y.toNat % 16 := by
  simp [← BitVec.toNat_inj]

theorem lowNibble_zero_iff (x : Byte) : x.extractLsb' 0 4 = 0#4 ↔ x.toNat % 16 = 0 := by
  simp [← BitVec.toNat_inj]

/-- The status nibble of a byte, as a number. -/
theorem highNibble_eq (x : Byte) : x.extractLsb' 4 4 = BitVec.ofNat 4 (x.toNat / 16) := by
  apply BitVec.eq_of_toNat_eq
  simp [Nat.shiftRight_eq_div_pow]

section Next

variable (a : Attempt) (r : Reply) {c : RxChar}

theorem judgeNext_illFormed (h : c.framing = true ∨ c.head = true) : judgeNext a r c = .failed .broken := by
  unfold judgeNext; rw [if_pos h]

variable (hf : c.framing = false) (hh : c.head = false)
include hf hh

/-- A kind character that is a REFUSE or answers the request's kind (R9, 3). -/
theorem judgeNext_kind_good (hs : r.stage = .kind) (hk : c.byte.toNat % 16 = 0 ∨ c.byte.toNat % 16 = a.kind.toNat % 16) :
    judgeNext a r c = .more { r with
      crc := crcByte r.crc c.byte, stage := .length, refuse := decide (c.byte.toNat % 16 = 0)
      nibble := BitVec.ofNat 4 (c.byte.toNat / 16) } none := by
  simp [judgeNext, judgeKind, hf, hh, hs, lowNibble_eq_iff, lowNibble_zero_iff, highNibble_eq, hk]

theorem judgeNext_kind_bad (hs : r.stage = .kind) (h0 : c.byte.toNat % 16 ≠ 0) (hk : c.byte.toNat % 16 ≠ a.kind.toNat % 16) :
    judgeNext a r c = .failed .broken := by
  simp [judgeNext, judgeKind, hf, hh, hs, lowNibble_eq_iff, lowNibble_zero_iff, h0, hk]

/-- A length character that is in range and is the one expected, where one is (R9, 4). -/
theorem judgeNext_length_good (hs : r.stage = .length) (h32 : c.byte.toNat ≤ 32)
    (he : r.refuse = true ∨ a.expected = 255 ∨ c.byte = a.expected) :
    judgeNext a r c = .more { r with
      crc := crcByte r.crc c.byte, stage := if c.byte.toNat = 0 then .checkHigh else .payload, length := c.byte } none := by
  have hbad : ¬ (32 < c.byte.toNat ∨ (r.refuse = false ∧ a.expected ≠ 255 ∧ c.byte ≠ a.expected)) := by
    rintro (h | ⟨h1, h2, h3⟩)
    · omega
    · exact absurd he (by simp only [h1, Bool.false_eq_true, h2, h3, or_self, not_false_eq_true])
  have hzero : c.byte = 0 ↔ c.byte.toNat = 0 := by simp [← BitVec.toNat_inj]
  simp only [judgeNext, judgeLength, hf, hh, hs, Bool.false_eq_true, or_self, if_false, hbad, hzero]

theorem judgeNext_length_bad (hs : r.stage = .length)
    (hbad : 32 < c.byte.toNat ∨ (r.refuse = false ∧ a.expected ≠ 255 ∧ c.byte ≠ a.expected)) :
    judgeNext a r c = .failed .length := by
  simp only [judgeNext, judgeLength, hf, hh, hs, Bool.false_eq_true, or_self, if_false, hbad, if_true]

theorem judgeNext_payload (hs : r.stage = .payload) :
    judgeNext a r c = .more { r with
      crc := crcByte r.crc c.byte, stage := if r.got + 1 < r.length.toNat then .payload else .checkHigh, got := r.got + 1 }
      (some (r.got, c.byte)) := by
  simp [judgeNext, hf, hh, hs]

theorem judgeNext_checkHigh (hs : r.stage = .checkHigh) :
    judgeNext a r c = .more { r with stage := .checkLow, checkHigh := c.byte } none := by
  simp [judgeNext, hf, hh, hs]

theorem judgeNext_checkLow (hs : r.stage = .checkLow) : judgeNext a r c = .whole (judgeWhole a r c.byte) r := by
  simp [judgeNext, hf, hh, hs]

end Next

section Whole

variable {a : Attempt} {r : Reply} {low : Byte}

theorem judgeWhole_check (h : r.checkHigh ++ low ≠ r.crc) : judgeWhole a r low = .check := if_pos h

theorem judgeWhole_sequence (h : r.checkHigh ++ low = r.crc) (hq : isSequenced a.kind = true) (hb : r.seqBit ≠ a.seqBit) :
    judgeWhole a r low = .sequence :=
  (if_neg (not_not_intro h)).trans (if_pos ⟨hq, hb⟩)

theorem judgeWhole_good (h : r.checkHigh ++ low = r.crc) (hq : isSequenced a.kind = true → r.seqBit = a.seqBit) :
    judgeWhole a r low = if r.refuse = true then .refused else .ok :=
  (if_neg (not_not_intro h)).trans (if_neg fun hn => hn.2 (hq hn.1))

/-- A whole frame passes exactly when its check value and its sequence bit do (R10). -/
theorem judgeWhole_eq_good_iff {o : Outcome} (ho : o = .ok ∨ o = .refused) :
    judgeWhole a r low = o ↔ r.checkHigh ++ low = r.crc ∧ (isSequenced a.kind = true → r.seqBit = a.seqBit)
      ∧ (r.refuse = true ↔ o = .refused) := by
  by_cases h : r.checkHigh ++ low = r.crc
  · by_cases hq : isSequenced a.kind = true → r.seqBit = a.seqBit
    · rw [judgeWhole_good h hq]
      rcases ho with rfl | rfl <;> cases r.refuse <;> simp [h, eq_true hq]
    · obtain ⟨hq1, hq2⟩ := Classical.not_imp.mp hq
      rw [judgeWhole_sequence h hq1 hq2]
      rcases ho with rfl | rfl <;> simp [hq1, hq2]
  · rw [judgeWhole_check h]
    rcases ho with rfl | rfl <;> simp [h]

end Whole

theorem judgesReplies : JudgesReplies := by
  intro a r c
  refine ⟨judgeNext_illFormed a r, fun hf hh => ⟨fun hs => ⟨?_, ?_⟩, fun hs => ⟨?_, ?_, ?_⟩, ?_, ?_, fun hs => ⟨?_, fun hc => ⟨?_, ?_⟩⟩⟩, ?_⟩
  · exact judgeNext_kind_good a r hf hh hs
  · exact judgeNext_kind_bad a r hf hh hs
  · exact fun h => judgeNext_length_bad a r hf hh hs (.inl h)
  · exact fun h1 h2 h3 => judgeNext_length_bad a r hf hh hs (.inr ⟨h1, h2, h3⟩)
  · exact judgeNext_length_good a r hf hh hs
  · exact judgeNext_payload a r hf hh
  · exact judgeNext_checkHigh a r hf hh
  · intro hc
    rw [judgeNext_checkLow a r hf hh hs, judgeWhole_check hc]
  · intro hq hb
    rw [judgeNext_checkLow a r hf hh hs, judgeWhole_sequence hc ((isSequenced_iff _).mpr hq) hb]
  · intro hq
    rw [judgeNext_checkLow a r hf hh hs, judgeWhole_good hc fun hk => hq.resolve_left (not_not_intro ((isSequenced_iff _).mp hk))]
  · intro before hb
    rw [crc_append_byte, hb]

/-! ## A character in RECEIVE (R70) -/

/-- A character of the reply is judged where it completes. -/
theorem handleCharacter_receive {s : State} {l : Line} {a : Attempt} {r : Reply} (p : RxProgress) (c : RxChar)
    (hs : (s.engine l).state = .receive) (ha : (s.engine l).attempt = some a) (hr : a.reply = some r) :
    handleCharacter l p c s = applyJudgement l a (judgeNext a r c) s := by
  simp only [handleCharacter, hs, ha, replyCharacter, hr]

/-- Settles O33, by the judgement of the character: each rule of R9 and R10 by itself, and what follows from each kind of judgement. -/
theorem replyCharactersAreJudged : Obligations.ReplyCharactersAreJudged := by
  refine ⟨judgesReplies, ?_⟩
  intro s l a r c place captured hreset hs ha hr hrec e
  obtain ⟨p, -, -, hexec⟩ := exec_receivedCharacter_handled hreset (by simp [hs]) hrec c
  have hse : e.state = .receive := hs
  have hae : e.attempt = some a := ha
  rw [hexec, handleCharacter_receive (s := s.setEngine l e) p c (by simpa using hse) (by simpa using hae) hr]
  refine ⟨?_, ?_, ?_, ?_⟩
  · intro r' hj
    simp [hj, applyJudgement, storePayload, hse]
  · intro r' k v hj
    refine ⟨fun hheld => ?_, fun b hheld => ?_⟩
    · simp [hj, applyJudgement, storePayload, hheld, hse]
    · simp [hj, applyJudgement, storePayload, hheld, hse]
  · intro o hj
    simp [hj, applyJudgement, enterQuiet]
  · intro o r' hj ho
    have hfailed : o.Failed := by rcases ho with rfl | rfl <;> simp [Outcome.Failed]
    simp only [hj, applyJudgement, State.setEngine_same, State.setEngine_setEngine]
    rw [endAttempt_eq_failedAttempt (a := { a with reply := some r' }) (by simp) hfailed]
    exact congrArg _ (failedAttempt_attempt e _ e.attempt rfl rfl)

end Sys2Proof.Machine
end

section
/-! Which replies are accepted (R5, R7, R9, R10). -/

namespace Sys2Proof.Machine

/-! ## Whole replies (R9, R10)

A reply is accepted stage by stage: each lemma says what the characters of one stage are, and what is left to accept after them. -/

/-- A character of a frame after its head, its stop bit good. -/
def plainChar (b : Byte) : RxChar := { byte := b, head := false, framing := false }

/-- The characters to come bring a reply under judgement to an outcome. -/
def Accepts (a : Attempt) (r : Reply) (o : Outcome) (chars : List RxChar) : Prop :=
  ∃ r', judgeFrom a (.more r none) chars = .whole o r'

theorem frameChars_cons (b : Byte) (bytes : List Byte) :
    frameChars (b :: bytes) = { byte := b, head := true, framing := false } :: bytes.map plainChar := rfl

theorem judgeFrom_failed (a : Attempt) (o : Outcome) (chars : List RxChar) : judgeFrom a (.failed o) chars = .failed o := by
  cases chars <;> rfl

theorem judgeFrom_whole (a : Attempt) (o : Outcome) (r : Reply) (chars : List RxChar) :
    judgeFrom a (.whole o r) chars = .whole o r := by
  cases chars <;> rfl

/-- What is stored of a character does not bear on the judgement of the next. -/
theorem judgeFrom_more (a : Attempt) (r : Reply) (o : Outcome) (x : Option (Nat × Byte)) (chars : List RxChar) :
    (∃ r', judgeFrom a (.more r x) chars = .whole o r') ↔ Accepts a r o chars := by
  cases chars <;> simp [Accepts, judgeFrom]

/-- Bytes followed by the check value that runs on over them from a value. -/
def checkedFrom (start : Half) (bytes : List Byte) : List Byte :=
  bytes ++ [highByte (bytes.foldl crcByte start), lowByte (bytes.foldl crcByte start)]

theorem checked_eq_checkedFrom (body : List Byte) : checked body = checkedFrom 0xFFFF body := rfl

theorem checkedFrom_cons (start : Half) (b : Byte) (bytes : List Byte) :
    checkedFrom start (b :: bytes) = b :: checkedFrom (crcByte start b) bytes := rfl

theorem twoBytes_eq_iff (high low : Byte) (h : Half) : high ++ low = h ↔ high = highByte h ∧ low = lowByte h := by
  constructor
  · rintro rfl
    constructor <;> apply BitVec.eq_of_getLsbD_eq <;> intro i hi
    · simp only [highByte, BitVec.getLsbD_setWidth, BitVec.getLsbD_ushiftRight, getLsbD_twoBytes, hi, decide_true,
        Bool.true_and, show ¬ 8 + i < 8 by omega, if_false, Nat.add_sub_cancel_left]
    · simp only [lowByte, BitVec.getLsbD_setWidth, getLsbD_twoBytes, hi, decide_true, Bool.true_and, if_true]
  · rintro ⟨rfl, rfl⟩
    exact highByte_append_lowByte h

/-- What a whole frame must still show when its check characters are right (R10). -/
def PassesAs (a : Attempt) (r : Reply) (o : Outcome) : Prop :=
  (isSequenced a.kind = true → r.seqBit = a.seqBit) ∧ (r.refuse = true ↔ o = .refused)

/-! ## The bytes of a reply (section 1.3) -/

/-- The head of a reply: the request's address with direction 1. -/
def replyHead (station : Byte) (seqBit : Bool) : Byte :=
  ((station &&& 0x3F) ||| 0x40) ||| (if seqBit = true then 0x80 else 0)

/-- The kind byte of a reply: a kind code under the status nibble. -/
def kindByte (nibble : BitVec 4) (code : Byte) : Byte := (nibble.setWidth 8 <<< 4) ||| (code &&& 0x0F)

theorem replyBytes_eq (station code : Byte) (seqBit : Bool) (nibble : BitVec 4) (payload : List Byte) :
    replyBytes station code seqBit nibble payload =
      checked (replyHead station seqBit :: kindByte nibble code :: BitVec.ofNat 8 payload.length :: payload) := rfl

theorem frameChars_replyBytes (station code : Byte) (seqBit : Bool) (nibble : BitVec 4) (payload : List Byte) :
    frameChars (replyBytes station code seqBit nibble payload) =
      { byte := replyHead station seqBit, head := true, framing := false }
        :: (checkedFrom (crc [replyHead station seqBit])
            (kindByte nibble code :: BitVec.ofNat 8 payload.length :: payload)).map plainChar := by
  rw [replyBytes_eq, checked_eq_checkedFrom, checkedFrom_cons, frameChars_cons]; rfl

theorem kindByte_toNat (nibble : BitVec 4) (code : Byte) :
    (kindByte nibble code).toNat = nibble.toNat * 16 + code.toNat % 16 := by
  have low : code.toNat % 16 < 2 ^ 4 := Nat.mod_lt _ (by decide)
  have mask : code.toNat &&& 15 = code.toNat % 16 := Nat.and_two_pow_sub_one_eq_mod code.toNat 4
  have fits : nibble.toNat <<< 4 < 256 := by rw [Nat.shiftLeft_eq]; omega
  have wide : (nibble.setWidth 8).toNat = nibble.toNat := by simp; omega
  simp only [kindByte, BitVec.toNat_or, BitVec.toNat_shiftLeft, BitVec.toNat_and, wide]
  rw [Nat.mod_eq_of_lt (by simpa using fits)]
  rw [show (0x0F : Byte).toNat = 15 from rfl, mask, ← Nat.shiftLeft_add_eq_or_of_lt low, Nat.shiftLeft_eq]

theorem kindByte_eq_iff (b : Byte) (nibble : BitVec 4) (code : Byte) :
    b = kindByte nibble code ↔ b.toNat % 16 = code.toNat % 16 ∧ nibble = BitVec.ofNat 4 (b.toNat / 16) := by
  rw [← BitVec.toNat_inj, ← BitVec.toNat_inj, kindByte_toNat, BitVec.toNat_ofNat]
  omega

theorem replyHead_eq_request (station : Byte) (seqBit : Bool) : replyHead station seqBit = requestHead station seqBit ||| 0x40 := by
  unfold replyHead requestHead
  rw [BitVec.or_assoc, BitVec.or_assoc, BitVec.or_comm 0x40]

theorem replyHead_eq_iff (b station : Byte) (seqBit : Bool) :
    b = replyHead station seqBit ↔ b.setWidth 6 = station.setWidth 6 ∧ b.getLsbD 6 = true ∧ b.getLsbD 7 = seqBit := by
  obtain ⟨h6, h7⟩ := requestHead_high station seqBit
  have fields : (replyHead station seqBit).setWidth 6 = station.setWidth 6 ∧ (replyHead station seqBit).getLsbD 6 = true
      ∧ (replyHead station seqBit).getLsbD 7 = seqBit := by
    rw [replyHead_eq_request, BitVec.setWidth_or, requestHead_low, BitVec.getLsbD_or, BitVec.getLsbD_or, h6, h7]
    refine ⟨?_, rfl, Bool.or_false _⟩
    rw [show (0x40 : Byte).setWidth 6 = 0 from rfl]; exact BitVec.or_zero
  constructor
  · rintro rfl; exact fields
  · rintro ⟨hlow, hd, hs⟩
    obtain ⟨flow, fd, fs⟩ := fields
    apply BitVec.eq_of_getLsbD_eq
    intro i hi
    by_cases h6' : i < 6
    · have := congrArg (·.getLsbD i) (hlow.trans flow.symm)
      simpa only [BitVec.getLsbD_setWidth, h6', decide_true, Bool.true_and] using this
    · obtain rfl | rfl : i = 6 ∨ i = 7 := by omega
      · rw [hd, fd]
      · rw [hs, fs]

/-! ## Acceptance stage by stage -/

section Stages

variable {a : Attempt} {r : Reply} {o : Outcome} {chars : List RxChar}

/-- An accepted reply goes on with a character of good form (R9, 1). -/
theorem accepts_iff_plain : Accepts a r o chars ↔
    ∃ b rest, chars = plainChar b :: rest ∧ ∃ r', judgeFrom a (judgeNext a r (plainChar b)) rest = .whole o r' := by
  constructor
  · rintro ⟨r', h⟩
    cases chars with
    | nil => simp [judgeFrom] at h
    | cons c rest =>
      have hstep : judgeFrom a (judgeNext a r c) rest = .whole o r' := h
      by_cases hbad : c.framing = true ∨ c.head = true
      · simp [judgeNext_illFormed a r hbad, judgeFrom_failed] at hstep
      · obtain ⟨b, head, framing⟩ := c
        obtain ⟨rfl, rfl⟩ : framing = false ∧ head = false := by simpa using hbad
        exact ⟨b, rest, rfl, r', hstep⟩
  · rintro ⟨b, rest, rfl, r', h⟩
    exact ⟨r', h⟩

theorem accepts_checkLow (hs : r.stage = .checkLow) (ho : o = .ok ∨ o = .refused) : Accepts a r o chars ↔
    ∃ low after, chars = plainChar low :: after ∧ r.checkHigh ++ low = r.crc ∧ PassesAs a r o := by
  rw [accepts_iff_plain]
  refine exists_congr fun low => exists_congr fun after => and_congr_right fun _ => ?_
  rw [judgeNext_checkLow a r rfl rfl hs, judgeFrom_whole]
  simp only [Judgement.whole.injEq, exists_and_left, exists_eq', and_true]
  exact judgeWhole_eq_good_iff ho

theorem accepts_checkHigh (hs : r.stage = .checkHigh) (ho : o = .ok ∨ o = .refused) : Accepts a r o chars ↔
    ∃ after, chars = (checkedFrom r.crc []).map plainChar ++ after ∧ PassesAs a r o := by
  have next : ∀ b rest, (∃ r', judgeFrom a (judgeNext a r (plainChar b)) rest = .whole o r') ↔
      Accepts a { r with stage := .checkLow, checkHigh := b } o rest := by
    intro b rest; rw [judgeNext_checkHigh a r rfl rfl hs, judgeFrom_more]; rfl
  rw [accepts_iff_plain]
  constructor
  · rintro ⟨high, rest, rfl, h⟩
    obtain ⟨low, after, rfl, hc, hpass⟩ := (accepts_checkLow rfl ho).mp ((next ..).mp h)
    obtain ⟨rfl, rfl⟩ : high = highByte r.crc ∧ low = lowByte r.crc := (twoBytes_eq_iff ..).mp hc
    exact ⟨after, rfl, hpass⟩
  · rintro ⟨after, rfl, hpass⟩
    exact ⟨_, _, rfl, (next ..).mpr ((accepts_checkLow rfl ho).mpr ⟨_, after, rfl, highByte_append_lowByte _, hpass⟩)⟩

/-- The payload characters are as many as the length still asks for, and the check characters follow (R9, 5). -/
theorem accepts_payload (ho : o = .ok ∨ o = .refused) (n : Nat) : ∀ {r : Reply} {chars : List RxChar},
    r.stage = (if r.got < r.length.toNat then .payload else .checkHigh) → r.length.toNat = r.got + n →
    (Accepts a r o chars ↔ ∃ payload after, payload.length = n
      ∧ chars = (checkedFrom r.crc payload).map plainChar ++ after ∧ PassesAs a r o) := by
  induction n with
  | zero =>
    intro r chars hs hn
    rw [accepts_checkHigh (by rw [hs, if_neg (by omega)]) ho]
    constructor
    · rintro ⟨after, h⟩; exact ⟨[], after, rfl, h⟩
    · rintro ⟨payload, after, hlen, h⟩
      obtain rfl := List.eq_nil_of_length_eq_zero hlen
      exact ⟨after, h⟩
  | succ n ih =>
    intro r chars hs hn
    have next : ∀ b rest, (∃ r', judgeFrom a (judgeNext a r (plainChar b)) rest = .whole o r') ↔
        ∃ payload after, payload.length = n
          ∧ rest = (checkedFrom (crcByte r.crc b) payload).map plainChar ++ after ∧ PassesAs a r o := by
      intro b rest
      rw [judgeNext_payload a r rfl rfl (by rw [hs, if_pos (by omega)]), judgeFrom_more]
      exact ih rfl (by simp only; omega)
    rw [accepts_iff_plain]
    constructor
    · rintro ⟨b, rest, rfl, h⟩
      obtain ⟨payload, after, hlen, rfl, hpass⟩ := (next ..).mp h
      exact ⟨b :: payload, after, by simp [hlen], rfl, hpass⟩
    · rintro ⟨payload, after, hlen, rfl, hpass⟩
      obtain ⟨b, payload, rfl⟩ := List.exists_cons_of_length_eq_add_one hlen
      exact ⟨b, _, rfl, (next ..).mpr ⟨payload, after, by simpa using hlen, rfl, hpass⟩⟩

/-- The length character is in range, is the one expected where one is, and counts the payload (R9, 4). -/
theorem accepts_length (hs : r.stage = .length) (hg : r.got = 0) (ho : o = .ok ∨ o = .refused) : Accepts a r o chars ↔
    ∃ payload after, payload.length ≤ 32
      ∧ (r.refuse = false → a.expected ≠ 255 → payload.length = a.expected.toNat)
      ∧ chars = (checkedFrom r.crc (BitVec.ofNat 8 payload.length :: payload)).map plainChar ++ after ∧ PassesAs a r o := by
  have next : ∀ b : Byte, b.toNat ≤ 32 → (r.refuse = true ∨ a.expected = 255 ∨ b = a.expected) → ∀ rest,
      ((∃ r', judgeFrom a (judgeNext a r (plainChar b)) rest = .whole o r') ↔
        ∃ payload after, payload.length = b.toNat
          ∧ rest = (checkedFrom (crcByte r.crc b) payload).map plainChar ++ after ∧ PassesAs a r o) := by
    intro b h32 he rest
    rw [judgeNext_length_good a r rfl rfl hs h32 he, judgeFrom_more]
    refine accepts_payload ho b.toNat ?_ (by simp [hg, plainChar])
    by_cases h0 : b.toNat = 0
    · simp [plainChar, hg, h0]
    · simp [plainChar, hg, h0, Nat.pos_of_ne_zero h0]
  rw [accepts_iff_plain]
  constructor
  · rintro ⟨b, rest, rfl, h⟩
    by_cases hbad : 32 < b.toNat ∨ (r.refuse = false ∧ a.expected ≠ 255 ∧ b ≠ a.expected)
    · obtain ⟨r', h⟩ := h
      rw [judgeNext_length_bad a r rfl rfl hs hbad, judgeFrom_failed] at h
      cases h
    · obtain ⟨h32, he⟩ := not_or.mp hbad
      have he' : r.refuse = false → a.expected ≠ 255 → b = a.expected := fun h1 h2 => by_contra fun h3 => he ⟨h1, h2, h3⟩
      obtain ⟨payload, after, hlen, rfl, hpass⟩ := (next b (by omega) (by cases hr : r.refuse <;> simp; tauto) rest).mp h
      refine ⟨payload, after, by omega, fun h1 h2 => ?_, ?_, hpass⟩
      · rw [hlen, he' h1 h2]
      · rw [hlen, BitVec.ofNat_toNat, BitVec.setWidth_eq, checkedFrom_cons]; rfl
  · rintro ⟨payload, after, h32, he, rfl, hpass⟩
    have hb : (BitVec.ofNat 8 payload.length).toNat = payload.length := by simp; omega
    refine ⟨BitVec.ofNat 8 payload.length, _, rfl, (next _ (by omega) ?_ _).mpr ⟨payload, after, hb.symm, rfl, hpass⟩⟩
    by_cases h1 : r.refuse = true
    · exact .inl h1
    · by_cases h2 : a.expected = 255
      · exact .inr (.inl h2)
      · exact .inr (.inr (BitVec.eq_of_toNat_eq (hb.trans (he (by simpa using h1) h2))))

/-- The kind character carries the status nibble over the request's kind, or over 0 for a REFUSE (R9, 3). -/
theorem accepts_kind (hs : r.stage = .kind) (hg : r.got = 0) (hk : a.kind.toNat % 16 ≠ 0) (ho : o = .ok ∨ o = .refused) :
    Accepts a r o chars ↔ ∃ nibble payload after, payload.length ≤ 32
      ∧ (o = .ok → a.expected ≠ 255 → payload.length = a.expected.toNat)
      ∧ chars = (checkedFrom r.crc (kindByte nibble (if o = .ok then a.kind else 0) :: BitVec.ofNat 8 payload.length
          :: payload)).map plainChar ++ after
      ∧ (isSequenced a.kind = true → r.seqBit = a.seqBit) := by
  have next : ∀ b : Byte, (b.toNat % 16 = 0 ∨ b.toNat % 16 = a.kind.toNat % 16) → ∀ rest,
      ((∃ r', judgeFrom a (judgeNext a r (plainChar b)) rest = .whole o r') ↔
        ∃ payload after, payload.length ≤ 32
          ∧ (decide (b.toNat % 16 = 0) = false → a.expected ≠ 255 → payload.length = a.expected.toNat)
          ∧ rest = (checkedFrom (crcByte r.crc b) (BitVec.ofNat 8 payload.length :: payload)).map plainChar ++ after
          ∧ (isSequenced a.kind = true → r.seqBit = a.seqBit)
          ∧ (decide (b.toNat % 16 = 0) = true ↔ o = .refused)) := by
    intro b hb rest
    rw [judgeNext_kind_good a r rfl rfl hs hb, judgeFrom_more]
    exact accepts_length rfl hg ho
  have code : ∀ b : Byte, (b.toNat % 16 = 0 ∨ b.toNat % 16 = a.kind.toNat % 16) → (b.toNat % 16 = 0 ↔ o = .refused) →
      b.toNat % 16 = (if o = .ok then a.kind else 0 : Byte).toNat % 16 := by
    intro b hb hr
    rcases ho with rfl | rfl
    · simpa using hb.resolve_left (by simpa using hr)
    · simpa using hr
  rw [accepts_iff_plain]
  constructor
  · rintro ⟨b, rest, rfl, h⟩
    by_cases hb : b.toNat % 16 = 0 ∨ b.toNat % 16 = a.kind.toNat % 16
    · obtain ⟨payload, after, h32, he, rfl, hq, hr⟩ := (next b hb rest).mp h
      have hr' : b.toNat % 16 = 0 ↔ o = .refused := by simpa using hr
      refine ⟨BitVec.ofNat 4 (b.toNat / 16), payload, after, h32, fun hok => he ?_, ?_, hq⟩
      · simp [hr', hok]
      · rw [← (kindByte_eq_iff ..).mpr ⟨code b hb hr', rfl⟩]; rfl
    · obtain ⟨h0, h1⟩ := not_or.mp hb
      obtain ⟨r', h⟩ := h
      rw [judgeNext_kind_bad a r rfl rfl hs h0 h1, judgeFrom_failed] at h
      cases h
  · rintro ⟨nibble, payload, after, h32, he, rfl, hq⟩
    obtain ⟨hcode, -⟩ := (kindByte_eq_iff _ nibble (if o = .ok then a.kind else 0)).mp rfl
    have hr : (kindByte nibble (if o = .ok then a.kind else 0)).toNat % 16 = 0 ↔ o = .refused := by
      rw [hcode]; rcases ho with rfl | rfl <;> simp [hk]
    refine ⟨_, _, rfl, (next _ ?_ _).mpr ⟨payload, after, h32, fun h => he ?_, rfl, hq, by simpa using hr⟩⟩
    · rw [hcode]; rcases ho with rfl | rfl <;> simp
    · exact ho.resolve_right fun h' => of_decide_eq_false h (hr.mpr h')

end Stages

/-! ## The head (R9, 1 and 2) -/

theorem extractLow_eq_setWidth (x : Byte) : x.extractLsb' 0 6 = x.setWidth 6 := BitVec.eq_of_toNat_eq (by simp)

theorem judgeHead_good (a : Attempt) (c : RxChar) (hf : c.framing = false) (ha : c.byte.setWidth 6 = a.station.setWidth 6)
    (hd : c.byte.getLsbD 6 = true) :
    judgeHead a c = .more { stage := .kind, seqBit := c.byte.getLsbD 7, refuse := false, nibble := 0, length := 0, got := 0,
                            crc := crc [c.byte], checkHigh := 0 } none := by
  unfold judgeHead
  rw [if_neg (by simp [hf]), if_neg (by rw [extractLow_eq_setWidth, extractLow_eq_setWidth, ha, hd]; simp)]
  rfl

theorem judgeHead_broken (a : Attempt) (c : RxChar) (hf : c.framing = true) : judgeHead a c = .failed .broken := if_pos hf

theorem judgeHead_address (a : Attempt) (c : RxChar) (hf : c.framing = false)
    (h : c.byte.setWidth 6 ≠ a.station.setWidth 6 ∨ c.byte.getLsbD 6 = false) : judgeHead a c = .failed .address := by
  unfold judgeHead
  rw [if_neg (by simp [hf]), if_pos (by rw [extractLow_eq_setWidth, extractLow_eq_setWidth]; exact h)]

/-- Settles O58, stage by stage from the head to the check characters. -/
theorem repliesAreAcceptedExactlyWhenConforming : Obligations.RepliesAreAcceptedExactlyWhenConforming := by
  intro a c rest o hhead hk ho
  constructor
  · intro h
    by_cases hgood : c.framing = false ∧ c.byte.setWidth 6 = a.station.setWidth 6 ∧ c.byte.getLsbD 6 = true
    · obtain ⟨hf, ha, hd⟩ := hgood
      rw [judgeHead_good a c hf ha hd, judgeFrom_more] at h
      obtain ⟨nibble, payload, after, h32, he, hrest, hq⟩ := (accepts_kind rfl rfl hk ho).mp h
      refine ⟨c.byte.getLsbD 7, nibble, payload, after, ?_, h32, he, hq⟩
      have hb : replyHead a.station (c.byte.getLsbD 7) = c.byte := ((replyHead_eq_iff ..).mpr ⟨ha, hd, rfl⟩).symm
      have hc : c = ⟨c.byte, true, false⟩ := by rw [← hhead, ← hf]
      rw [frameChars_replyBytes, hb, ← hc, hrest, List.cons_append]
    · obtain ⟨r', h⟩ := h
      have : judgeHead a c = .failed .broken ∨ judgeHead a c = .failed .address := by
        by_cases hf : c.framing = true
        · exact .inl (judgeHead_broken a c hf)
        · refine .inr (judgeHead_address a c (by simpa using hf) ?_)
          by_contra hn
          simp at hn hf
          exact hgood ⟨hf, hn⟩
      rcases this with hj | hj <;> rw [hj, judgeFrom_failed] at h <;> cases h
  · rintro ⟨seqBit, nibble, payload, after, hchars, h32, he, hq⟩
    rw [frameChars_replyBytes, List.cons_append] at hchars
    obtain ⟨rfl, hrest⟩ := List.cons.inj hchars
    obtain ⟨ha, hd, hs⟩ := (replyHead_eq_iff (replyHead a.station seqBit) a.station seqBit).mp rfl
    rw [judgeHead_good a ⟨replyHead a.station seqBit, true, false⟩ rfl ha hd, judgeFrom_more]
    refine (accepts_kind rfl rfl hk ho).mpr ⟨nibble, payload, after, h32, he, hrest, fun h => ?_⟩
    rw [hs, hq h]

end Sys2Proof.Machine
end

section
/-! Windows, waits, start edges, strays, reply heads and sent characters (chapters 1 and 4). -/

namespace Sys2Proof.Machine

/-! ## Windows and waits (R8, R9, R11, R71) -/

section Expiries

variable {s : State} {l : Line}

theorem windowExpiry_outside (h : (s.engine l).state ≠ .await) : windowExpiry l s = s := by
  unfold windowExpiry
  dsimp only
  split
  · contradiction
  · rfl

theorem windowExpiry_free {a : Attempt} (hs : (s.engine l).state = .await) (ha : (s.engine l).attempt = some a)
    (hc : (s.engine l).rx.char = none) : windowExpiry l s = endAttempt l .timeout s := by
  simp [windowExpiry, hs, ha, hc]

theorem windowExpiry_receiving {a : Attempt} (hs : (s.engine l).state = .await) (ha : (s.engine l).attempt = some a)
    (hc : (s.engine l).rx.char.isSome = true) :
    windowExpiry l s = s.setEngine l { s.engine l with attempt := some { a with windowOver := true } } := by
  simp [windowExpiry, hs, ha, hc]

theorem charGapExpiry_outside (h : (s.engine l).state ≠ .receive ∨ (s.engine l).rx.char.isSome = true) :
    charGapExpiry l s = s := by
  unfold charGapExpiry
  dsimp only
  split
  · rename_i hs _; rw [if_pos (h.resolve_left (not_not_intro hs))]
  · rfl

theorem charGapExpiry_free {a : Attempt} (hs : (s.engine l).state = .receive) (ha : (s.engine l).attempt = some a)
    (hc : (s.engine l).rx.char = none) : charGapExpiry l s = enterQuiet l .broken a s := by
  simp [charGapExpiry, hs, ha, hc]

theorem endQuiet_outside (h : (s.engine l).state ≠ .quiet) : endQuiet l s = s := by
  unfold endQuiet
  dsimp only
  split
  · contradiction
  · rfl

theorem endQuiet_judged {a : Attempt} (hs : (s.engine l).state = .quiet) (ha : (s.engine l).attempt = some a) :
    endQuiet l s = endAttempt l (a.judged.getD .broken) s := by
  simp [endQuiet, hs, ha]

end Expiries

/-- Settles O35, by the wait that ends. -/
theorem windowsAndWaitsEndAttempts : Obligations.WindowsAndWaitsEndAttempts := by
  intro s l hr e
  refine ⟨fun hs => ?_, fun hs => ?_, fun hs => ?_, exec_quietIdleExpiry_held hr l, fun a ha => ⟨fun hs => ⟨fun hc => ?_, fun hc => ?_⟩,
    fun hs hc => ?_, fun o hs hj ho => ?_⟩⟩
  · rw [exec_replyWindowExpiry hr, windowExpiry_outside hs]
  · rw [exec_characterGapExpiry hr, charGapExpiry_outside hs]
  · refine ⟨?_, by rw [exec_quietLimitExpiry hr, endQuiet_outside hs]⟩
    by_cases hp : (s.engine l).rx.prev = some false
    · exact exec_quietIdleExpiry_held hr l hp
    · rw [exec_quietIdleExpiry hr l hp, endQuiet_outside hs]
  · rw [exec_replyWindowExpiry hr, windowExpiry_free hs ha hc, endAttempt_eq_failedAttempt ha (.inl rfl)]
  · rw [exec_replyWindowExpiry hr, windowExpiry_receiving hs ha hc]
  · rw [exec_characterGapExpiry hr, charGapExpiry_free hs ha hc]; rfl
  · have ended : endQuiet l s = failedAttempt s l a o := by
      rw [endQuiet_judged hs ha, hj]; exact endAttempt_eq_failedAttempt ha ho
    exact ⟨by rw [exec_quietLimitExpiry hr, ended], fun hp => by rw [exec_quietIdleExpiry hr l hp, ended]⟩

/-! ## Start edges, false starts and discarded characters (R3, R13, R78) -/

section Receiver

variable {s : State} {l : Line}

theorem startEdge_unseen (h : (s.engine l).state = .off ∨ (s.engine l).rx.char.isSome = true ∨ (s.engine l).rx.prev = some false) :
    startEdge l s = s := if_pos h

theorem startEdge_seen (hs : (s.engine l).state ≠ .off) (hc : (s.engine l).rx.char = none)
    (hp : (s.engine l).rx.prev ≠ some false) :
    startEdge l s = s.setEngine l { s.engine l with
      idle := 0
      rx := { prev := some false
              char := some { place := (s.engine l).edgePlace, capture := s.timer.capture, count := 0, votes := [], bits := [] } } } := by
  unfold startEdge
  rw [if_neg (by simp [hs, hc, hp])]

theorem Timer.capture_running {t : Timer} (h : t.cycleRunning = true) :
    t.capture = { cycle := t.cycleCount, value := t.value, stopped := false } := by simp [Timer.capture, h]

theorem Timer.capture_stopped {t : Timer} (h : t.cycleRunning = false) :
    t.capture = { cycle := t.cycleCount, value := 0, stopped := true } := by simp [Timer.capture, h]

theorem falseStart_none (h : (s.engine l).rx.char = none) : falseStart l s = s := if_pos h

/-- A false start drops the character (R3). -/
theorem falseStart_drops (hc : (s.engine l).rx.char.isSome = true)
    (h : (s.engine l).state ≠ .await ∨ (s.engine l).attempt.any (·.windowOver) = false) :
    falseStart l s = s.setEngine l { s.engine l with rx := { prev := some true, char := none } } := by
  unfold falseStart
  rw [if_neg (Option.isSome_iff_ne_none.mp hc)]
  dsimp only
  split
  · rename_i a hs ha
    rw [if_neg (by simpa [ha, hs] using h)]
  · rfl

/-- A false start past the window's length decides TIMEOUT (R8). -/
theorem falseStart_timeout {a : Attempt} (hc : (s.engine l).rx.char.isSome = true) (hs : (s.engine l).state = .await)
    (ha : (s.engine l).attempt = some a) (hw : a.windowOver = true) :
    falseStart l s = endAttempt l .timeout (s.setEngine l { s.engine l with rx := { prev := some true, char := none } }) := by
  unfold falseStart
  rw [if_neg (Option.isSome_iff_ne_none.mp hc)]
  simp only [hs, ha, hw, if_true]

@[simp] theorem Engine.received_state (e : Engine) (framing : Bool) : (e.received framing).state = e.state := rfl
@[simp] theorem Engine.received_attempt (e : Engine) (framing : Bool) : (e.received framing).attempt = e.attempt := rfl
@[simp] theorem Engine.received_echoCheck (e : Engine) (framing : Bool) : (e.received framing).echoCheck = e.echoCheck := rfl
@[simp] theorem Engine.received_strays (e : Engine) (framing : Bool) : (e.received framing).strays = e.strays := rfl

variable (p : RxProgress) (c : RxChar)

theorem handleCharacter_stray (h : (s.engine l).state = .wait ∨ (s.engine l).state = .gap) :
    handleCharacter l p c s = countStray l s := by
  rcases h with h | h <;> simp [handleCharacter, h]

theorem handleCharacter_discards
    (h : (s.engine l).state = .quiet ∨ (s.engine l).state = .off ∨ ((s.engine l).state = .transmit ∧ (s.engine l).attempt = none)) :
    handleCharacter l p c s = s := by
  rcases h with h | h | ⟨h, ha⟩ <;> simp [handleCharacter, *]

theorem handleCharacter_transmit {a : Attempt} (hs : (s.engine l).state = .transmit) (ha : (s.engine l).attempt = some a) :
    handleCharacter l p c s =
      if (s.engine l).echoCheck = true ∧ p.place = .sending a.sent ∧ a.echo = none then
        s.setEngine l { s.engine l with attempt := some { a with echo := some c } }
      else s := by
  simp only [handleCharacter, hs, ha, echoCharacter]

theorem handleCharacter_await {a : Attempt} (hs : (s.engine l).state = .await) (ha : (s.engine l).attempt = some a) :
    handleCharacter l p c s = awaitCharacter l p c a s := by
  simp only [handleCharacter, hs, ha]

end Receiver

/-- Settles O31, event by event, and the characters by the state of the engine. -/
theorem startEdgesCaptureAndStraysCount : Obligations.StartEdgesCaptureAndStraysCount := by
  intro s l hr e
  refine ⟨fun h => ?_, fun h1 h2 h3 => ?_, Timer.capture_running, Timer.capture_stopped, fun h => ?_, fun h => ?_, fun h => ?_,
    fun hc => ⟨fun h => ?_, fun a hs ha hw => ?_⟩, fun a ha => ⟨fun hs => edgePlace_transmit hs ha, fun hs => edgePlace_await hs ha⟩,
    edgePlace_elsewhere, fun byte head framing => ⟨fun hc h => ?_, fun place captured hrec => ?_⟩⟩
  · rw [exec_startEdge hr, startEdge_unseen h]
  · rw [exec_startEdge hr, startEdge_seen h1 h2 h3]
  · rw [exec_rxReturnedTo1 hr, rxReturned, if_pos h]
  · rw [exec_rxReturnedTo1 hr, rxReturned, if_neg h]
  · rw [exec_falseStart hr, falseStart_none h]
  · rw [exec_falseStart hr, falseStart_drops hc h]
  · rw [exec_falseStart hr, falseStart_timeout hc hs ha hw]
    exact congrArg _ (endAttempt_eq_failedAttempt (by simpa using ha) (.inl rfl))
  · have unseen : startEdge l s = s := startEdge_unseen (h.imp_right .inr)
    rw [exec_receivedCharacter hr, unseen]
    simp only [completeCharacter, show (s.engine l).rx.char = none from hc]
  · intro discarded
    have handled := fun hoff => exec_receivedCharacter_handled hr hoff hrec { byte := byte, head := head, framing := framing }
    have noEcho : ∀ p c, (e.state = .quiet ∨ e.state = .off ∨ (e.state = .transmit ∧ e.attempt = none)) →
        handleCharacter l p c (s.setEngine l (e.received framing)) = s.setEngine l (e.received framing) := by
      intro p c h; exact handleCharacter_discards p c (by simpa using h)
    refine ⟨fun h => ?_, fun h => ?_, fun h ha => ?_, fun a hs ha => ?_⟩
    · obtain ⟨p, -, -, hx⟩ := handled (by rcases h with h | h <;> simp [e] at h <;> simp [h])
      rw [hx, handleCharacter_stray p _ (by simpa using h)]
      simp [countStray, e]
    · obtain ⟨p, -, -, hx⟩ := handled (by simp [e] at h; simp [h])
      exact hx.trans (congrArg _ (noEcho p _ (.inl h)))
    · obtain ⟨p, -, -, hx⟩ := handled (by simp [e] at h; simp [h])
      exact hx.trans (congrArg _ (noEcho p _ (.inr (.inr ⟨h, ha⟩))))
    · obtain ⟨p, hplace, -, hx⟩ := handled (by simp [e] at hs; simp [hs])
      have hx := hx.trans (congrArg _ (handleCharacter_transmit p _ (by simpa using hs) (by simpa using ha)))
      refine ⟨fun h1 h2 h3 => ?_, fun h => hx.trans (congrArg _ (if_neg ?_))⟩
      · rw [hx, if_pos ⟨by simpa using h1, hplace.trans h2, h3⟩]
        simp [e]
      · rintro ⟨h1, h2, h3⟩
        have h1' : e.echoCheck = true := by simpa using h1
        simp [h1', ← hplace, h2, h3] at h

/-! ## The reply's head (R8, R69) -/

/-- A head in the window is judged with its arrival kept (R69). -/
theorem headFound_judged {s : State} {l : Line} {a : Attempt} (p : Capture) (c : RxChar) (ha : (s.engine l).attempt = some a) :
    headFound l p c s = applyJudgement l { a with arrival := some p, reply := none } (judgeHead a c)
      (s.setEngine l ((s.engine l).arrive p)) := by
  have arrived : ((s.engine l).arrive p).attempt = some { a with arrival := some p, reply := none } := by
    simp [Engine.arrive, ha]
  simp only [headFound, State.setEngine_same, arrived]
  rfl

/-- The slot's arrival, unless the attempt is a request's (R69). -/
theorem Engine.arrive_slot (e : Engine) (p : Capture) :
    (e.arrive p).slot = if e.request.isSome = true then e.slot else e.slot.map fun c => { c with
      arrival := p.value, afterBoundary := decide (p.cycle ≠ c.cycle ∨ p.stopped = true) } := by
  simp [Engine.arrive]

/-- Settles O32: the head is judged with its arrival kept, and every other character is a stray. -/
theorem awaitFindsTheReplyHead : Obligations.AwaitFindsTheReplyHead := by
  intro s l a byte head framing place captured hr hs ha hrec e slot
  obtain ⟨p, hplace, hcap, hx⟩ := exec_receivedCharacter_handled hr (by simp [hs]) hrec { byte := byte, head := head, framing := framing }
  rw [handleCharacter_await p _ (a := a) (by simpa using hs) (by simpa using ha), awaitCharacter] at hx
  constructor
  · intro hhead hwin
    rw [if_pos ⟨hhead, hplace.trans hwin⟩, headFound_judged _ _ (a := a) (by simpa using ha), hcap, State.setEngine_same,
      State.setEngine_setEngine] at hx
    have hslot : (e.arrive captured).slot = slot := e.arrive_slot captured
    refine ⟨fun hf haddr hd => ?_, fun hf => ?_, fun hf hbad => ?_⟩
    · rw [hx, judgeHead_good a ⟨byte, head, framing⟩ hf haddr hd, ← hslot]
      simp only [applyJudgement, storePayload, State.setEngine_same, State.setEngine_setEngine]
      rfl
    · rw [hx, judgeHead_broken a ⟨byte, head, framing⟩ hf, ← hslot]
      simp only [applyJudgement, enterQuiet, State.setEngine_same, State.setEngine_setEngine]
      rfl
    · rw [hx, judgeHead_address a ⟨byte, head, framing⟩ hf hbad, ← hslot]
      simp only [applyJudgement, enterQuiet, State.setEngine_same, State.setEngine_setEngine]
      rfl
  · intro hno
    rw [if_neg fun h => hno.elim (fun h1 => by simp [h1] at h) fun h2 => h2 (hplace.symm.trans h.2)] at hx
    refine ⟨fun hw => ?_, fun hw => ?_⟩
    · rw [hx, if_neg (by simp [hw])]
      simp [countStray, e]
    · rw [hx, if_pos hw, countStray, endAttempt_eq_failedAttempt (a := a) (by simpa using ha) (.inl rfl)]
      simp [e]

end Sys2Proof.Machine
end

section
/-! TX and DE, and the end of a sent character (R2, R13, R67, R68). -/

namespace Sys2Proof.Machine

/-! ## TX and DE (R1, R2, section 1.2) -/

theorem Engine.bitTime_eq (e : Engine) : e.bitTime = 16 * (e.divisor.toNat + 1) := rfl

/-- The position of a character that stands on TX. -/
theorem Engine.txPin_position {e : Engine} {c : TxChar} {k : Nat} (hc : e.tx = some c) (h1 : k * e.bitTime ≤ c.clock)
    (h2 : c.clock < (k + 1) * e.bitTime) : e.txPin = txLevel c k := by
  have hk : c.clock / e.bitTime = k := Nat.div_eq_of_lt_le h1 h2
  simp only [Engine.txPin, hc, hk]

theorem Engine.txPin_idle {e : Engine} (h : e.tx = none) : e.txPin = true := by simp only [Engine.txPin, h]

theorem Engine.inFlight_iff (e : Engine) :
    e.inFlight = true ↔ e.state = .transmit ∨ e.state = .await ∨ e.state = .receive ∨ e.state = .quiet := by
  simp [Engine.inFlight, or_assoc]

theorem linesAreDriven : LinesAreDriven := by
  intro e position
  refine ⟨fun c hc => ⟨fun h => ?_, fun bit hb h => ?_, fun h => ?_, fun h => ?_⟩, Engine.txPin_idle, fun h => ?_, fun h => ?_,
    fun hl hs => ?_, e.inFlight_iff⟩
  · exact Engine.txPin_position hc h.1 h.2
  · rw [Engine.txPin_position hc h.1 h.2, txLevel, if_neg (by omega), if_pos (by omega), Nat.add_sub_cancel]
  · exact Engine.txPin_position hc h.1 h.2
  · exact Engine.txPin_position hc h.1 h.2
  · simp [Engine.dePin, h]
  · simp [Engine.dePin, h]
  · exact Engine.txPin_idle (by simpa [hs] using hl.tx_iff)

/-! ## The end of a sent character (R2, R13, R67, R68) -/

section CharacterSent

variable {s : State} {l : Line}

theorem characterSent_outside (h : (s.engine l).state ≠ .transmit) : characterSent l s = s := if_pos h

theorem characterSent_disabling (hs : (s.engine l).state = .transmit) (hd : (s.engine l).disabling = true) :
    characterSent l s = s.setEngine l (s.engine l).turnOff := by
  simp [characterSent, hs, hd]

variable {a : Attempt}

/-- The echo is good exactly when it does not fail (R13). -/
theorem echoFails_iff (a : Attempt) : echoFails a = true ↔ ¬ EchoGood a := by
  unfold echoFails EchoGood
  cases a.echo with
  | none => simp
  | some c =>
    obtain ⟨byte, head, framing⟩ := c
    cases framing <;> simp [RxChar.mk.injEq]
    tauto

theorem characterSent_conflict (hs : (s.engine l).state = .transmit) (hd : (s.engine l).disabling = false)
    (ha : (s.engine l).attempt = some a) (he : (s.engine l).echoCheck = true) (hg : ¬ EchoGood a) :
    characterSent l s = endAttempt l .conflict s := by
  simp [characterSent, hs, hd, ha, he, (echoFails_iff a).mpr hg]

variable (hs : (s.engine l).state = .transmit) (hd : (s.engine l).disabling = false) (ha : (s.engine l).attempt = some a)
  (he : (s.engine l).echoCheck = false ∨ EchoGood a)
include hs hd ha he

/-- With its echo in order, a sent character is followed by the next, or ends the frame. -/
theorem characterSent_goesOn :
    characterSent l s = if a.sent + 1 < a.frame.length then nextCharacter l a s else frameSent l a s := by
  have ok : ¬ ((s.engine l).echoCheck = true ∧ echoFails a = true) := by
    rw [echoFails_iff]; rintro ⟨h1, h2⟩; exact he.elim (fun h => by simp [h] at h1) h2
  simp only [characterSent, hs, hd, ha, ok, ne_eq, not_true_eq_false, Bool.false_eq_true, if_false]

end CharacterSent

/-- All that the end of a sent character can do: the line is OFF, or nothing without an attempt (log 19), or the attempt ends, or its next
character begins, or its reply window. -/
theorem characterSent_cases {s : State} {l : Line} (hs : (s.engine l).state = .transmit) :
    ((s.engine l).disabling = true ∧ characterSent l s = s.setEngine l (s.engine l).turnOff)
    ∨ ((s.engine l).disabling = false ∧ (s.engine l).attempt = none ∧ characterSent l s = s)
    ∨ ((s.engine l).disabling = false ∧ ∃ a, (s.engine l).attempt = some a ∧
      ((∃ o, characterSent l s = endAttempt l o s) ∨ characterSent l s = nextCharacter l a s
        ∨ characterSent l s = s.setEngine l { s.engine l with
            state := .await, tx := none, elapsed := 0, attempt := some { a with sent := a.sent + 1, echo := none } })) := by
  cases hd : (s.engine l).disabling with
  | true => exact .inl ⟨rfl, characterSent_disabling hs hd⟩
  | false =>
    cases ha : (s.engine l).attempt with
    | none => exact .inr (.inl ⟨rfl, rfl, by simp [characterSent, hs, hd, ha]⟩)
    | some a =>
      refine .inr (.inr ⟨rfl, a, rfl, ?_⟩)
      by_cases hg : (s.engine l).echoCheck = false ∨ EchoGood a
      · rw [characterSent_goesOn hs hd ha hg]
        by_cases hmore : a.sent + 1 < a.frame.length
        · exact .inr (.inl (if_pos hmore))
        · rw [if_neg hmore]
          by_cases hk : a.kind = kindBroadcast
          · exact .inl ⟨.ok, if_pos hk⟩
          · exact .inr (.inr (if_neg hk))
      · obtain ⟨he, hg⟩ := not_or.mp hg
        exact .inl ⟨.conflict, characterSent_conflict hs hd ha (by simpa using he) hg⟩

/-! ## A BROADCAST that has been sent (R68, R136) -/

@[simp] theorem State.giveBuffer_none (s : State) : s.giveBuffer none = s := rfl

theorem returnHeld_none {s : State} {l : Line} (h : (s.engine l).held = none) : returnHeld l s = s := by
  rw [returnHeld, h, State.giveBuffer_none, dropHeld]
  exact State.setEngine_self (by rw [← h])

/-- A BROADCAST slot that ends OK gives no report and holds no buffer: its result is all. -/
theorem finishSlot_broadcast {s : State} {l : Line} {c : Slot} (a : Attempt) (hc : (s.engine l).slot = some c)
    (hk : c.kindSent = kindBroadcast) (hh : (s.engine l).held = none) :
    finishSlot l .ok (some a) s = leaveSlot l .ok s := by
  have kept : publishHeld l c a s = s := by
    unfold publishHeld
    rw [hh]
    exact returnHeld_none hh
  simp only [finishSlot, hc, kept, hk, if_true]

theorem applyReport_noRecord {s : State} {l : Line} {address : Byte} (p : Report) (h : stationIx address = none) :
    applyReport l address p s = (s, []) := by simp only [applyReport, h]

theorem leaveRequest_eq (l : Line) (s : State) :
    leaveRequest l s = s.setEngine l { s.engine l with
      request := none, held := none
      slot := (s.engine l).slot.map fun c => { c with carried := decide (timeRemaining s c = 0) } } := rfl

/-- A BROADCAST request that ends OK: to every station, without a record to report to, a reply or a buffer (R136). -/
theorem completeRequest_broadcast {s : State} {l : Line} {q : Request} {a : Attempt} (hq : (s.engine l).request = some q)
    (hh : (s.engine l).held = none) (hr : a.reply = none) (hst : stationIx q.desc.station = none) :
    completeRequest l .ok (some a) s =
      leaveRequest l (s.withEvents (s.events.appendReserved l (doneEvent l q .ok none none))) := by
  have kept : keptBuffer (s.engine l) .ok (some a) = none := by simp [keptBuffer, hh]
  have nibble : finalNibble .ok (some a) = none := by simp [finalNibble, hr]
  simp only [completeRequest, hq, kept, hh, State.giveBuffer_none, applyReport_noRecord _ hst, nibble]
  rfl

/-- A BROADCAST request is to station 63 (R129). -/
theorem Descriptor.valid_broadcast {d : Descriptor} (hv : d.valid = true) (hk : d.kind = kindBroadcast) : d.station = 63 := by
  simp [Descriptor.valid, hk, kindBroadcast] at hv
  tauto

/-- The exchange of a legal engine's attempt is its request's, or else its slot's (R67, R135). -/
theorem Engine.Legal.kind_of_request {e : Engine} (h : e.Legal) {a : Attempt} {q : Request} (ha : e.attempt = some a)
    (hq : e.request = some q) : a.kind = q.desc.kind := by
  obtain ⟨x, hx, -, hk, -, -⟩ := h.exchange ha
  simp only [Engine.exchange, hq, Option.some.injEq] at hx
  rw [hk, ← hx]; rfl

theorem Engine.Legal.kind_of_slot {e : Engine} (h : e.Legal) {a : Attempt} {c : Slot} (ha : e.attempt = some a)
    (hq : e.request = none) (hc : e.slot = some c) : a.kind = c.kindSent := by
  obtain ⟨x, hx, -, hk, -, -⟩ := h.exchange ha
  simp only [Engine.exchange, hq, hc, Option.map_some, Option.some.injEq] at hx
  rw [hk, ← hx]; rfl

theorem Engine.Legal.held_none_of_broadcast {e : Engine} (h : e.Legal) {a : Attempt} (ha : e.attempt = some a)
    (hk : a.kind = kindBroadcast) : e.held = none := by
  obtain ⟨x, hx, -, hkx, -, -⟩ := h.exchange ha
  exact h.held_broadcast hx (hkx.symm.trans hk)

theorem State.setEngine_withSchedule (s : State) (l : Line) (e : Engine) (x : Schedule) :
    (s.setEngine l e).withSchedule x = (s.withSchedule x).setEngine l e := rfl

theorem State.setEngine_withEvents (s : State) (l : Line) (e : Engine) (x : EventQueue) :
    (s.setEngine l e).withEvents x = (s.withEvents x).setEngine l e := rfl

/-- A BROADCAST that has been sent ends its slot OK (R68). -/
theorem endAttempt_broadcastSlot {s : State} {l : Line} {a : Attempt} {c : Slot} (hl : (s.engine l).Legal)
    (ha : (s.engine l).attempt = some a) (hk : a.kind = kindBroadcast) (hq : (s.engine l).request = none)
    (hc : (s.engine l).slot = some c) :
    endAttempt l .ok s =
      (s.withSchedule (s.schedule.writeResult l c.index c.changeovers (c.result .ok (s.engine l).generation))).setEngine l
        { s.engine l with
          state := .gap, tx := none, elapsed := 0, attempt := none, failed := none, slot := none, snapshot := none } := by
  have hkind : c.kindSent = kindBroadcast := (hl.kind_of_slot ha hq hc).symm.trans hk
  have hheld : (s.engine l).held = none := hl.held_none_of_broadcast ha hk
  rw [endAttempt_good ha (.inl rfl)]
  dsimp only
  rw [if_neg (by simp [hq]), finishSlot_broadcast (c := c) a (by simpa using hc) hkind (by simpa using hheld),
    leaveSlot_slot (c := c) _ (by simpa using hc), State.setEngine_withSchedule, State.setEngine_setEngine, State.setEngine_same]
  rfl

/-- A BROADCAST that has been sent ends its request OK, in an OPEN slot that goes on (R68, R136). -/
theorem endAttempt_broadcastRequest {s : State} {l : Line} {a : Attempt} {q : Request} (hl : (s.engine l).Legal)
    (hs : (s.engine l).state = .transmit) (ha : (s.engine l).attempt = some a) (hk : a.kind = kindBroadcast)
    (hq : (s.engine l).request = some q) (hv : q.desc.valid = true) :
    endAttempt l .ok s =
      (s.withEvents (s.events.appendReserved l
        { kind := .acyclicDone, line := some l, station := 63, code := 1, cycle := q.cycle, tag := q.desc.tag,
          entryIndex := BitVec.ofNat 8 q.index.val, attempts := q.attempts })).setEngine l
        { s.engine l with
          state := .gap, tx := none, elapsed := 0, attempt := none, failed := none, request := none, held := none
          slot := (s.engine l).slot.map fun c => { c with carried := decide (timeRemaining s c = 0) } } := by
  have hstation : q.desc.station = 63 := Descriptor.valid_broadcast hv ((hl.kind_of_request ha hq).symm.trans hk)
  have hheld : (s.engine l).held = none := hl.held_none_of_broadcast ha hk
  rw [endAttempt_good ha (.inl rfl)]
  dsimp only
  rw [if_pos (by simp [hq]), completeRequest_broadcast (q := q) (by simpa using hq) (by simpa using hheld) (hl.of_transmit ha hs)
      (by rw [hstation]; rfl), leaveRequest_eq, State.setEngine_withEvents, State.setEngine_setEngine, State.setEngine_same,
    doneEvent, hstation]
  rfl

/-- Settles O30, by the engine's state, the echo and the place in the frame. -/
theorem characterEndsContinueTheFrame : Obligations.CharacterEndsContinueTheFrame := by
  refine ⟨linesAreDriven, fun s l hr => ?_⟩
  intro e
  rw [exec_characterTransmitted hr]
  refine ⟨fun hs => by rw [characterSent_outside hs], fun hs hd => ?_, fun hs hd a ha => ⟨fun he hg => ?_, fun he => ?_⟩⟩
  · rw [characterSent_disabling hs hd]
    refine ⟨_, rfl, ?_⟩
    rw [State.setEngine_same]
    exact ⟨rfl, rfl, ⟨rfl, rfl, rfl, rfl, rfl, rfl, rfl, rfl⟩, rfl, ⟨rfl, rfl, rfl, rfl, rfl, rfl, rfl, rfl, rfl, rfl⟩,
      State.setEngine_other _ _ (otherLine_ne l), rfl⟩
  · rw [characterSent_conflict hs hd ha he hg, endAttempt_eq_failedAttempt ha (by simp [Outcome.Failed])]
  · rw [characterSent_goesOn hs hd ha he]
    refine ⟨fun hmore => by rw [if_pos hmore]; rfl, fun hlast hk => ?_, fun c hlast hk hl hc => ?_⟩
    · rw [if_neg (by omega), frameSent, if_neg hk]
    · rw [if_neg (by omega), frameSent, if_pos hk]
      refine ⟨fun hq => congrArg _ (endAttempt_broadcastSlot hl ha hk hq hc), fun q hq hv => ?_⟩
      have hheld : none = e.held := (hl.held_none_of_broadcast ha hk).symm
      rw [endAttempt_broadcastRequest hl hs ha hk hq hv, hheld, show (s.engine l).slot = some c from hc]
      rfl

end Sys2Proof.Machine
end

section
/-! What a line's operations leave of its engine, and the moments of a line on the clock. -/

namespace Sys2Proof.Machine

/-! ## What the ends of slots and requests leave of an engine -/

/-- The engine after the end of a slot or of a request: only what it held for them may differ. -/
def Engine.Relieved (e e' : Engine) : Prop :=
  ∃ slot snapshot held request, e' = { e with slot := slot, snapshot := snapshot, held := held, request := request }

theorem Engine.Relieved.refl (e : Engine) : e.Relieved e := ⟨_, _, _, _, rfl⟩

theorem Engine.Relieved.trans {e e' e'' : Engine} (h : e.Relieved e') (k : e'.Relieved e'') : e.Relieved e'' := by
  obtain ⟨_, _, _, _, rfl⟩ := h
  obtain ⟨_, _, _, _, rfl⟩ := k
  exact ⟨_, _, _, _, rfl⟩

section Ends

variable (l : Line) (o : Outcome) (a : Option Attempt) (s : State)

theorem leaveSlot_relieved : (s.engine l).Relieved ((leaveSlot l o s).engine l) := by
  unfold leaveSlot
  split
  · exact .refl _
  · rw [State.setEngine_same]; exact ⟨_, _, _, _, rfl⟩

theorem dropHeld_relieved : (s.engine l).Relieved ((dropHeld l s).engine l) := by
  rw [dropHeld, State.setEngine_same]; exact ⟨_, _, _, _, rfl⟩

theorem returnHeld_relieved : (s.engine l).Relieved ((returnHeld l s).engine l) := dropHeld_relieved l _

theorem writeHeader_engine (b : Fin 72) (x : Attempt) (label : Byte) (k : Line) :
    (writeHeader l b x label s).engine k = s.engine k := by
  unfold writeHeader; split <;> rfl

theorem publishHeld_relieved (c : Slot) (x : Attempt) : (s.engine l).Relieved ((publishHeld l c x s).engine l) := by
  unfold publishHeld
  split
  · rename_i b m _ _
    have published : (publishInto m b (writeHeader l b x c.entry.label s)).engine l = s.engine l := writeHeader_engine ..
    rw [← published]; exact dropHeld_relieved l _
  · exact returnHeld_relieved l s

theorem applyReport_engine (address : Byte) (p : Report) (k : Line) : ((applyReport l address p s).1).engine k = s.engine k := by
  unfold applyReport; split <;> rfl

theorem reportSlot_engine (address : Byte) (p : Report) (k : Line) : (reportSlot l address p s).engine k = s.engine k :=
  applyReport_engine ..

theorem finishSlot_relieved : (s.engine l).Relieved ((finishSlot l o a s).engine l) := by
  unfold finishSlot
  split
  · exact .refl _
  · rename_i c _
    have reported : ∀ s1 : State, (s.engine l).Relieved (s1.engine l) → (s.engine l).Relieved
        ((if c.kindSent = kindBroadcast then s1 else reportSlot l c.entry.station (c.report o a) s1).engine l) := by
      intro s1 h; split
      · exact h
      · rwa [reportSlot_engine]
    refine (reported _ ?_).trans (leaveSlot_relieved ..)
    split
    · exact publishHeld_relieved ..
    · exact returnHeld_relieved ..

theorem leaveRequest_relieved : (s.engine l).Relieved ((leaveRequest l s).engine l) := by
  rw [leaveRequest_eq, State.setEngine_same]; exact ⟨_, _, _, _, rfl⟩

theorem anyPlace_engine (x : α) (ys : List α) (k : Line) : ((anyPlace s x ys).2).engine k = s.engine k := by
  unfold anyPlace; split <;> rfl

theorem completeRequest_relieved : (s.engine l).Relieved ((completeRequest l o a s).engine l) := by
  unfold completeRequest
  split
  · exact .refl _
  · rename_i q _
    have reported : ∀ s1 : State, s1.engine l = s.engine l →
        ((if o = .notReady ∨ o = .aborted then (s1, []) else applyReport l q.desc.station (q.report o a) s1).1).engine l =
          s.engine l := by
      intro s1 h; split
      · exact h
      · rw [applyReport_engine, h]
    refine Engine.Relieved.trans ?_ (leaveRequest_relieved ..)
    rw [State.appendAll_engine, anyPlace_engine, reported]
    · exact .refl _
    · split
      · exact writeHeader_engine ..
      · rfl

theorem reportAttempt_engine (address : Byte) (k : Line) : (reportAttempt l address o s).engine k = s.engine k := by
  unfold reportAttempt; split <;> rfl

/-- An attempt that ends leaves the engine in GAP, counting the frame gap, with nothing on TX (R72). -/
theorem endAttempt_engine {s : State} {x : Attempt} (h : (s.engine l).attempt = some x) :
    ∃ failed, Engine.Relieved
      { s.engine l with state := .gap, attempt := none, tx := none, elapsed := 0, failed := failed }
      ((endAttempt l o s).engine l) := by
  refine ⟨if decide (o = .ok ∨ o = .refused) = true then none else some o, ?_⟩
  have same : (if x.kind = kindBroadcast then s else reportAttempt l x.station o s).engine l = s.engine l := by
    split
    · rfl
    · exact reportAttempt_engine ..
  simp only [endAttempt, h]
  split
  · split
    · refine Engine.Relieved.trans ?_ (completeRequest_relieved ..)
      rw [State.setEngine_same, same]; exact .refl _
    · refine Engine.Relieved.trans ?_ (finishSlot_relieved ..)
      rw [State.setEngine_same, same]; exact .refl _
  · rw [State.setEngine_same, same]; exact .refl _

theorem endAttempt_fields {s : State} {x : Attempt} (h : (s.engine l).attempt = some x) :
    let e := s.engine l
    let e' := (endAttempt l o s).engine l
    e'.state = .gap ∧ e'.attempt = none ∧ e'.elapsed = 0 ∧ e'.frameGap = e.frameGap ∧ e'.divisor = e.divisor
      ∧ e'.sampleClock = e.sampleClock ∧ e'.rx = e.rx := by
  obtain ⟨_, _, _, _, _, he⟩ := endAttempt_engine l o h
  dsimp only
  rw [he]
  exact ⟨rfl, rfl, rfl, rfl, rfl, rfl, rfl⟩

end Ends

/-! ## What a walk leaves of an engine -/

/-- The engine after steps of its walk that send nothing. -/
def Engine.WalksOn (e e' : Engine) : Prop :=
  ∃ next walk slot snapshot held request,
    e' = { e with next := next, walk := walk, slot := slot, snapshot := snapshot, held := held, request := request }

theorem Engine.Relieved.walksOn {e e' : Engine} (h : e.Relieved e') : e.WalksOn e' := by
  obtain ⟨_, _, _, _, rfl⟩ := h
  exact ⟨_, _, _, _, _, _, rfl⟩

theorem Engine.WalksOn.refl (e : Engine) : e.WalksOn e := (Engine.Relieved.refl e).walksOn

theorem Engine.WalksOn.trans {e e' e'' : Engine} (h : e.WalksOn e') (k : e'.WalksOn e'') : e.WalksOn e'' := by
  obtain ⟨_, _, _, _, _, _, rfl⟩ := h
  obtain ⟨_, _, _, _, _, _, rfl⟩ := k
  exact ⟨_, _, _, _, _, _, rfl⟩

/-- The engine after a step of its walk that has begun to send (R67): the head's start bit begins, and a character in reception began
before it (R13). -/
def Engine.BeginsToSend (e e' : Engine) : Prop :=
  ∃ a byte, a.sent = 0 ∧ Engine.WalksOn
    { e with
      state := .transmit, attempt := some a, failed := none, tx := some { byte := byte, head := true, clock := 0 }
      rx := e.rx.forget, elapsed := 0 } e'

/-- The engine after its walk: it has sent nothing, or has begun to send. -/
def Engine.Walked (e e' : Engine) : Prop := e.WalksOn e' ∨ e.BeginsToSend e'

theorem Engine.Walked.refl (e : Engine) : e.Walked e := .inl (.refl e)

theorem Engine.WalksOn.walked {e e' e'' : Engine} (h : e.WalksOn e') (k : e'.Walked e'') : e.Walked e'' := by
  rcases k with k | ⟨a, byte, ha, k⟩
  · exact .inl (h.trans k)
  · obtain ⟨_, _, _, _, _, _, rfl⟩ := h
    obtain ⟨_, _, _, _, _, _, rfl⟩ := k
    exact .inr ⟨a, byte, ha, _, _, _, _, _, _, rfl⟩

theorem Engine.WalksOn.state {e e' : Engine} (h : e.WalksOn e') : e'.state = e.state := by
  obtain ⟨_, _, _, _, _, _, rfl⟩ := h; rfl

theorem Engine.BeginsToSend.state {e e' : Engine} (h : e.BeginsToSend e') : e'.state = .transmit := by
  obtain ⟨_, _, -, h⟩ := h; exact h.state

theorem Engine.transmit_begins (e : Engine) (x : Exchange) (seqBit : Bool) : e.BeginsToSend (e.transmit x seqBit) := by
  let a : Attempt :=
    { station := x.station, kind := x.kind, seqBit := seqBit, expected := x.expected, replyWindow := x.replyWindow
      frame := requestFrame x.station x.kind seqBit x.payload, sent := 0, echo := none, windowOver := false
      arrival := none, reply := none, judged := none }
  refine ⟨a, a.frame.headD 0, rfl, ?_⟩
  unfold Engine.transmit Engine.countAttempt
  cases e.request <;> exact ⟨_, _, _, _, _, _, rfl⟩

section Walk

variable (l : Line) (s : State)

theorem readNext_walksOn : (s.engine l).WalksOn ((readNext l s).engine l) := by
  obtain ⟨x, hx, -⟩ := readNext_only l s
  rw [hx, State.setEngine_same]; exact ⟨_, _, _, _, _, _, rfl⟩

theorem beginAttempt_walked : (s.engine l).Walked ((beginAttempt l s).engine l) := by
  unfold beginAttempt
  split
  · exact .refl _
  · rename_i x _
    rw [State.setEngine_same]
    exact .inr ((s.engine l).transmit_begins x _)

theorem takeBuffer_walksOn (w : TakeFor) : (s.engine l).WalksOn ((takeBuffer l w s).engine l) := by
  unfold takeBuffer
  split
  · rw [State.setEngine_same]; exact ⟨_, _, _, _, _, _, rfl⟩
  · dsimp only; split <;> exact .refl _

theorem sendSlot_walked (c : Slot) : (s.engine l).Walked ((sendSlot l c s).engine l) := by
  have snapshot : (s.engine l).WalksOn ((takeSnapshot l c s).engine l) := by
    unfold takeSnapshot; split
    · rw [State.setEngine_same]; exact ⟨_, _, _, _, _, _, rfl⟩
    · exact .refl _
  have buffer : ∀ t : State, (t.engine l).WalksOn ((takeForSlot l c t).engine l) := by
    intro t; unfold takeForSlot; split
    · exact takeBuffer_walksOn ..
    · exact .refl _
  exact (snapshot.trans (buffer _)).walked (beginAttempt_walked ..)

theorem startStation_walked (c : Slot) : (s.engine l).Walked ((startStation l c s).engine l) := by
  unfold startStation
  split
  · exact sendSlot_walked ..
  · dsimp only
    split
    · exact .inl (leaveSlot_relieved ..).walksOn
    · exact sendSlot_walked l _ c
    · refine Engine.WalksOn.walked ?_ (sendSlot_walked ..)
      rw [State.setEngine_same]; exact ⟨_, _, _, _, _, _, rfl⟩

theorem beginSlot_walked (n : Notice) (r : ReadEntry) : (s.engine l).Walked ((beginSlot l n r s).engine l) := by
  have entered : (s.engine l).WalksOn ((s.engine l).enterSlot (newSlot s n r)) := ⟨_, _, _, _, _, _, rfl⟩
  unfold beginSlot
  dsimp only
  refine entered.walked ?_
  generalize ht : s.setEngine l ((s.engine l).enterSlot (newSlot s n r)) = t
  have he : (s.engine l).enterSlot (newSlot s n r) = t.engine l := by rw [← ht, State.setEngine_same]
  rw [he]
  split
  · exact .inl (leaveSlot_relieved ..).walksOn
  · split
    · exact .refl _
    · split
      · exact sendSlot_walked ..
      · exact startStation_walked ..

/-- A walk stands while the engine does not wait (R61). -/
theorem walkOn_notWaiting {l : Line} {s : State} (k : Nat) (hk : (s.engine l).next = none) (h : (s.engine l).state ≠ .wait) :
    walkOn l k s = s := by
  have unread : readNext l s = s := by
    unfold readNext
    dsimp only
    split
    · rw [if_neg fun hw => h hw.1]
    · rfl
  cases k with
  | zero => rfl
  | succ k =>
    unfold walkOn
    simp only [unread, hk]
    cases (s.engine l).notice <;> rfl

theorem walkOn_walked (k : Nat) : ∀ s : State, (s.engine l).Walked ((walkOn l k s).engine l) := by
  induction k with
  | zero => exact fun s => .refl _
  | succ k ih =>
    intro s
    unfold walkOn
    refine (readNext_walksOn l s).walked ?_
    dsimp only
    split
    · split
      · rename_i n r _ _ _
        rcases beginSlot_walked l (readNext l s) n r with h | h
        · exact h.walked (ih _)
        · rw [walkOn_notWaiting k (beginSlot_walk ..).2 (by simp [h.state])]
          exact .inr h
      · exact .refl _
    · exact .refl _

theorem slotBegin_walked : (s.engine l).Walked ((slotBegin l s).engine l) := by
  unfold slotBegin
  dsimp only
  split
  · exact walkOn_walked ..
  · exact .refl _

theorem afterGap_walked : (s.engine l).Walked ((afterGap l s).engine l) := by
  unfold afterGap
  split
  · split
    · exact (leaveSlot_relieved ..).walksOn.walked (slotBegin_walked ..)
    · rw [State.setEngine_same]; exact .inl ⟨_, _, _, _, _, _, rfl⟩
  · exact slotBegin_walked ..

theorem retryDecision_walked (o : Outcome) : (s.engine l).Walked ((retryDecision l o s).engine l) := by
  unfold retryDecision
  split
  · exact beginAttempt_walked ..
  · split
    · exact (completeRequest_relieved ..).walksOn.walked (afterGap_walked ..)
    · exact (finishSlot_relieved ..).walksOn.walked (slotBegin_walked ..)

/-- The end of a frame gap: the engine waits, and its walk goes on (R72). -/
theorem frameGapEnd_walked (h : (s.engine l).state = .gap) :
    Engine.Walked { s.engine l with state := .wait, failed := none } ((frameGapEnd l s).engine l) := by
  unfold frameGapEnd
  dsimp only
  rw [if_pos h]
  generalize ht : s.setEngine l { s.engine l with state := .wait, failed := none } = t
  have he : { s.engine l with state := .wait, failed := none } = t.engine l := by rw [← ht, State.setEngine_same]
  rw [he]
  split
  · exact retryDecision_walked ..
  · exact afterGap_walked ..

end Walk

end Sys2Proof.Machine
end

section
/-! The spans of a line and what comes about when one runs out (R1, R8, R9, R11, R12). -/

namespace Sys2Proof.Machine

/-! ## Spans (R2, R8, R9, R11, R12) -/

/-- The spans of an engine are at least one bit time long: its frame gap, and the reply window of its attempt (section 4.1, R6). -/
def Engine.Paced (e : Engine) : Prop := 1 ≤ e.frameGap.toNat ∧ ∀ a, e.attempt = some a → 1 ≤ a.replyWindow.toNat

theorem Engine.SpansLegal.paced {e : Engine} (h : e.SpansLegal) : e.Paced := by
  obtain ⟨⟨-, ⟨hgap, -⟩, -⟩, hw⟩ := h
  exact ⟨by omega, hw⟩

theorem Engine.bitTime_pos (e : Engine) : 0 < e.bitTime := by rw [Engine.bitTime_eq]; omega

/-- Nothing more comes of the engine's spans in this period, whatever its receiver sees: none has run out, or the character that has ended
belongs to no attempt (log 19). -/
def Engine.Still (e : Engine) : Prop :=
  (e.state = .transmit ∧ (¬ e.SpanOver ∨ (e.attempt = none ∧ e.disabling = false)))
  ∨ ((e.state = .await ∨ e.state = .gap) ∧ ¬ e.SpanOver) ∨ e.state = .wait ∨ e.state = .off

theorem Engine.not_spanOver_gap {e : Engine} (h : e.Paced) (hs : e.state = .gap) (h0 : e.elapsed = 0) : ¬ e.SpanOver := by
  have : 0 < e.frameGap.toNat * e.bitTime := Nat.mul_pos h.1 e.bitTime_pos
  simp only [Engine.SpanOver, hs, h0]; omega

theorem Engine.not_spanOver_await {e : Engine} (h : e.Paced) (hs : e.state = .await) (h0 : e.elapsed = 0) : ¬ e.SpanOver := by
  simp only [Engine.SpanOver, hs, h0]
  rintro ⟨a, ha, -, hw⟩
  have : 0 < a.replyWindow.toNat * e.bitTime := Nat.mul_pos (h.2 a ha) e.bitTime_pos
  omega

theorem Engine.not_spanOver_transmit {e : Engine} {c : TxChar} (hs : e.state = .transmit) (hc : e.tx = some c) (h0 : c.clock = 0) :
    ¬ e.SpanOver := by
  have := e.bitTime_pos
  simp only [Engine.SpanOver, hs, hc]
  rintro ⟨_, ⟨⟩, h⟩
  omega

/-- A sample outside a character does not stir an engine at rest. -/
theorem Engine.Still.sampled {e : Engine} (h : e.Still) (rx : Receiver) (idle sampleClock : Nat) :
    Engine.Still { e with rx := rx, idle := idle, sampleClock := sampleClock } := by
  rcases h with ⟨hs, h⟩ | ⟨hs, h⟩ | h | h
  · exact .inl ⟨hs, h.imp_left fun hn => by simpa [Engine.SpanOver, hs, Engine.bitTime, Engine.samplePeriod] using hn⟩
  · refine .inr (.inl ⟨hs, ?_⟩)
    rcases hs with hs | hs <;> simpa [Engine.SpanOver, hs, Engine.bitTime, Engine.samplePeriod] using h
  · exact .inr (.inr (.inl h))
  · exact .inr (.inr (.inr h))

section Moments

variable {l : Line} {s : State}

theorem characterSent_noAttempt (hd : (s.engine l).disabling = false) (ha : (s.engine l).attempt = none) : characterSent l s = s := by
  by_cases hs : (s.engine l).state = .transmit
  · simp [characterSent, hs, hd, ha]
  · exact characterSent_outside hs

theorem charGapExpiry_noAttempt (ha : (s.engine l).attempt = none) : charGapExpiry l s = s := by
  unfold charGapExpiry
  dsimp only
  split
  · rename_i h; rw [ha] at h; cases h
  · rfl

theorem endQuiet_noAttempt (ha : (s.engine l).attempt = none) : endQuiet l s = s := by
  unfold endQuiet
  dsimp only
  split
  · rename_i h; rw [ha] at h; cases h
  · rfl

/-! ### The moment of each state -/

theorem lineMoment_transmit (hs : (s.engine l).state = .transmit) (h : (s.engine l).SpanOver) : lineMoment l s = characterSent l s := by
  simp only [Engine.SpanOver, hs] at h
  obtain ⟨c, hc, h⟩ := h
  have h' : (s.engine l).bits 11 ≤ c.clock := h
  simp only [lineMoment, hs, hc, Option.any_some, decide_eq_true h', if_true]

theorem lineMoment_await (hs : (s.engine l).state = .await) (h : (s.engine l).SpanOver) : lineMoment l s = windowExpiry l s := by
  simp only [Engine.SpanOver, hs] at h
  obtain ⟨a, ha, hw, h⟩ := h
  have h' : (s.engine l).bits (s.engine l).window ≤ (s.engine l).elapsed := by simpa [Engine.bits, Engine.window, ha] using h
  simp only [lineMoment, hs]
  rw [if_pos ⟨h', by simp [ha, hw]⟩]

theorem lineMoment_receive (hs : (s.engine l).state = .receive) (h : (s.engine l).SpanOver) : lineMoment l s = charGapExpiry l s := by
  simp only [Engine.SpanOver, hs] at h
  simp only [lineMoment, hs]
  exact if_pos h.2

theorem lineMoment_gap (hs : (s.engine l).state = .gap) (h : (s.engine l).SpanOver) : lineMoment l s = frameGapEnd l s := by
  simp only [Engine.SpanOver, hs] at h
  simp only [lineMoment, hs]
  exact if_pos h

theorem lineMoment_quiet_idle (hs : (s.engine l).state = .quiet)
    (h : (s.engine l).frameGap.toNat * (s.engine l).bitTime ≤ (s.engine l).idle) (hp : (s.engine l).rx.prev ≠ some false) :
    lineMoment l s = endQuiet l s := by
  simp only [lineMoment, hs]
  rw [if_pos ⟨h, hp⟩]

/-- In QUIET the wait ends by the idle line or by its limit, which is the reply window of the attempt (R11). -/
theorem lineMoment_quiet (hs : (s.engine l).state = .quiet) :
    lineMoment l s = endQuiet l s ∨ lineMoment l s = s := by
  simp only [lineMoment, hs]
  split
  · exact .inl rfl
  · split
    · exact .inl rfl
    · exact .inr rfl

theorem lineMoment_quiet_limit {a : Attempt} (hs : (s.engine l).state = .quiet) (ha : (s.engine l).attempt = some a)
    (hi : (s.engine l).idle < (s.engine l).frameGap.toNat * (s.engine l).bitTime ∨ (s.engine l).rx.prev = some false) :
    lineMoment l s = if a.replyWindow.toNat * (s.engine l).bitTime ≤ (s.engine l).elapsed then endQuiet l s else s := by
  have hno : ¬ ((s.engine l).bits (s.engine l).frameGap.toNat ≤ (s.engine l).idle ∧ (s.engine l).rx.prev ≠ some false) := by
    rintro ⟨h1, h2⟩
    exact hi.elim (fun h => absurd h1 (by simpa [Engine.bits] using h)) h2
  simp only [lineMoment, hs]
  rw [if_neg hno]
  simp [Engine.bits, Engine.window, ha]

/-- With no span run out, the moment brings nothing. -/
theorem lineMoment_none (h : ¬ (s.engine l).SpanOver) : lineMoment l s = s := by
  cases hs : (s.engine l).state with
  | off => simp only [lineMoment, hs]
  | wait => simp only [lineMoment, hs]
  | transmit =>
    simp only [Engine.SpanOver, hs] at h
    simp only [lineMoment, hs]
    cases hc : (s.engine l).tx with
    | none => simp
    | some c => exact if_neg fun hn => h ⟨c, hc, of_decide_eq_true hn⟩
  | await =>
    simp only [Engine.SpanOver, hs] at h
    simp only [lineMoment, hs]
    cases ha : (s.engine l).attempt with
    | none => simp
    | some a =>
      exact if_neg fun hn => h ⟨a, ha, by simpa [ha] using hn.2, by simpa [Engine.bits, Engine.window, ha] using hn.1⟩
  | receive =>
    simp only [Engine.SpanOver, hs] at h
    simp only [lineMoment, hs]
    split
    · rename_i hn
      refine charGapExpiry_outside (.inr ?_)
      by_contra hc
      exact h ⟨by simpa using hc, hn⟩
    · rfl
  | quiet =>
    simp only [Engine.SpanOver, hs] at h
    obtain ⟨hi, hw⟩ := not_or.mp h
    cases ha : (s.engine l).attempt with
    | none => rcases lineMoment_quiet hs with h | h <;> rw [h]; exact endQuiet_noAttempt ha
    | some a =>
      rw [lineMoment_quiet_limit hs ha (.inl (by omega)), if_neg fun hn => hw ⟨a, ha, hn⟩]
  | gap =>
    simp only [Engine.SpanOver, hs] at h
    simp only [lineMoment, hs]
    exact if_neg h

theorem lineMoment_still (h : (s.engine l).Still) : lineMoment l s = s := by
  rcases h with ⟨hs, h | ⟨ha, hd⟩⟩ | ⟨-, h⟩ | h | h
  · exact lineMoment_none h
  · by_cases ho : (s.engine l).SpanOver
    · rw [lineMoment_transmit hs ho, characterSent_noAttempt hd ha]
    · exact lineMoment_none ho
  · exact lineMoment_none h
  · simp only [lineMoment, h]
  · simp only [lineMoment, h]

/-! ### Engines at rest after their moments -/

theorem endAttempt_still {a : Attempt} (o : Outcome) (hp : (s.engine l).Paced) (ha : (s.engine l).attempt = some a) :
    ((endAttempt l o s).engine l).Still := by
  obtain ⟨hs, hnone, h0, hgap, -⟩ := endAttempt_fields l o ha
  have hp' : ((endAttempt l o s).engine l).Paced := ⟨by rw [hgap]; exact hp.1, by simp [hnone]⟩
  exact .inr (.inl ⟨.inr hs, Engine.not_spanOver_gap hp' hs h0⟩)

theorem characterSent_still (hp : (s.engine l).Paced) (hs : (s.engine l).state = .transmit) :
    ((characterSent l s).engine l).Still := by
  rcases characterSent_cases hs with ⟨-, h⟩ | ⟨hd, ha, h⟩ | ⟨-, a, ha, ⟨o, h⟩ | h | h⟩
  · rw [h, State.setEngine_same]
    exact .inr (.inr (.inr rfl))
  · rw [h]
    exact .inl ⟨hs, .inr ⟨ha, hd⟩⟩
  · rw [h]
    exact endAttempt_still o hp ha
  · rw [h, nextCharacter, State.setEngine_same]
    exact .inl ⟨hs, .inl (Engine.not_spanOver_transmit hs rfl rfl)⟩
  · rw [h, State.setEngine_same]
    refine .inr (.inl ⟨.inl rfl, Engine.not_spanOver_await ⟨hp.1, ?_⟩ rfl rfl⟩)
    rintro _ ⟨⟩
    exact hp.2 a ha

theorem Engine.BeginsToSend.still {e e' : Engine} (h : e.BeginsToSend e') : e'.Still := by
  obtain ⟨_, _, -, _, _, _, _, _, _, rfl⟩ := h
  exact .inl ⟨rfl, .inl (Engine.not_spanOver_transmit rfl rfl rfl)⟩

theorem frameGapEnd_still (hs : (s.engine l).state = .gap) : ((frameGapEnd l s).engine l).Still := by
  rcases frameGapEnd_walked l s hs with h | h
  · exact .inr (.inr (.inl h.state))
  · exact h.still

theorem windowExpiry_still {a : Attempt} (hp : (s.engine l).Paced) (hs : (s.engine l).state = .await)
    (ha : (s.engine l).attempt = some a) : ((windowExpiry l s).engine l).Still := by
  cases hc : (s.engine l).rx.char with
  | none =>
    rw [windowExpiry_free hs ha hc]
    exact endAttempt_still _ hp ha
  | some p =>
    rw [windowExpiry_receiving hs ha (by simp [hc]), State.setEngine_same]
    refine .inr (.inl ⟨.inl hs, ?_⟩)
    simp only [Engine.SpanOver, hs]
    rintro ⟨_, ⟨⟩, hw, -⟩
    simp at hw

/-- But for a reply whose character gap has run out, a second moment of the same period brings nothing. -/
theorem lineMoment_twice (hp : (s.engine l).Paced) (hs : (s.engine l).state ≠ .receive) :
    lineMoment l (lineMoment l s) = lineMoment l s := by
  by_cases ho : (s.engine l).SpanOver
  · cases hst : (s.engine l).state with
    | off => simp [Engine.SpanOver, hst] at ho
    | wait => simp [Engine.SpanOver, hst] at ho
    | transmit => rw [lineMoment_transmit hst ho]; exact lineMoment_still (characterSent_still hp hst)
    | await =>
      obtain ⟨a, ha, -⟩ : ∃ a, (s.engine l).attempt = some a ∧ _ := by simpa only [Engine.SpanOver, hst] using ho
      rw [lineMoment_await hst ho]; exact lineMoment_still (windowExpiry_still hp hst ha)
    | receive => exact absurd hst hs
    | quiet =>
      rcases lineMoment_quiet hst with h | h
      · cases ha : (s.engine l).attempt with
        | none => rw [h, endQuiet_noAttempt ha, h, endQuiet_noAttempt ha]
        | some a =>
          rw [h, endQuiet_judged hst ha]
          exact lineMoment_still (endAttempt_still _ hp ha)
      · rw [h, h]
    | gap => rw [lineMoment_gap hst ho]; exact lineMoment_still (frameGapEnd_still hst)
  · rw [lineMoment_none ho, lineMoment_none ho]

end Moments

/-- At the end of a character gap the quiet wait begins, and it ends at once on a line that has been idle for a frame gap (R9, R11). -/
theorem charGapOver_moments {s : State} {l : Line} (hr : s.inReset = false) (hp : (s.engine l).Paced) (ho : (s.engine l).SpanOver)
    (hs : (s.engine l).state = .receive) :
    let e := s.engine l
    (e.idle < e.frameGap.toNat * e.bitTime ∨ e.rx.prev = some false →
      exec (.characterGapExpiry l) s = .next (lineMoment l (lineMoment l s)))
    ∧ (e.frameGap.toNat * e.bitTime ≤ e.idle → e.rx.prev ≠ some false →
      ∃ w, exec (.characterGapExpiry l) s = .next w ∧ exec (.quietIdleExpiry l) w = .next (lineMoment l (lineMoment l s))) := by
  intro e
  rw [exec_characterGapExpiry hr, lineMoment_receive hs ho]
  cases ha : (s.engine l).attempt with
  | none =>
    have idle : ∀ hprev, exec (.quietIdleExpiry l) s = .next s := fun hprev => by
      rw [exec_quietIdleExpiry hr l hprev, endQuiet_noAttempt ha]
    rw [charGapExpiry_noAttempt ha, lineMoment_receive hs ho, charGapExpiry_noAttempt ha]
    exact ⟨fun _ => rfl, fun _ hprev => ⟨s, rfl, idle hprev⟩⟩
  | some a =>
    have hc : (s.engine l).rx.char = none := by
      simp only [Engine.SpanOver, hs] at ho; exact ho.1
    rw [charGapExpiry_free hs ha hc]
    obtain ⟨q, hq⟩ : ∃ q, q = enterQuiet l .broken a s := ⟨_, rfl⟩
    have hengine : q.engine l = { s.engine l with
        state := .quiet, elapsed := 0, attempt := some { a with judged := some .broken } } := by
      rw [hq, enterQuiet, State.setEngine_same]
    have hqr : q.inReset = false := by rw [hq]; exact hr
    rw [← hq]
    refine ⟨fun hi => ?_, fun hi hprev => ⟨q, rfl, ?_⟩⟩
    · have h0 : (q.engine l).elapsed = 0 := by rw [hengine]
      have pos : 0 < a.replyWindow.toNat * (q.engine l).bitTime := Nat.mul_pos (hp.2 a ha) (q.engine l).bitTime_pos
      rw [lineMoment_quiet_limit (a := { a with judged := some .broken }) (by rw [hengine]) (by rw [hengine])
        (by rw [hengine]; exact hi), if_neg (by rw [h0]; exact Nat.not_le.mpr pos)]
    · rw [exec_quietIdleExpiry hqr l (by rw [hengine]; exact hprev),
        lineMoment_quiet_idle (by rw [hengine]) (by rw [hengine]; exact hi) (by rw [hengine]; exact hprev)]

/-- What a line's two moments of a period bring about, when a span has run out: the row that names it, and at the end of a character gap
the end of the quiet wait on a line that is idle already (R11). -/
theorem lineMoments_spanActs {s : State} {l : Line} (hr : s.inReset = false) (hp : (s.engine l).Paced) (ho : (s.engine l).SpanOver) :
    SpanActs s l (lineMoment l (lineMoment l s)) := by
  refine ⟨fun hs => ?_, fun hs => ?_, fun hs => ?_, fun hs hi hprev => ?_, fun hs hi hw => ?_, fun hs => ?_⟩
  · rw [lineMoment_twice hp (by simp [hs]), lineMoment_transmit hs ho, exec_characterTransmitted hr]
  · rw [lineMoment_twice hp (by simp [hs]), lineMoment_await hs ho, exec_replyWindowExpiry hr]
  · exact charGapOver_moments hr hp ho hs
  · rw [lineMoment_twice hp (by simp [hs]), lineMoment_quiet_idle hs hi hprev, exec_quietIdleExpiry hr l hprev]
  · obtain ⟨a, ha, hw⟩ := hw
    rw [lineMoment_twice hp (by simp [hs]), lineMoment_quiet_limit hs ha hi, if_pos hw, exec_quietLimitExpiry hr]
  · rw [lineMoment_twice hp (by simp [hs]), lineMoment_gap hs ho, exec_frameGapEnd hr]

end Sys2Proof.Machine
end

section
/-! What a sample of RX does (R1, R3). -/

namespace Sys2Proof.Machine

/-! ## What a sample leaves of an engine -/

/-- The receiver's work on an engine: it is not turned OFF, its frame gap stays, and an attempt it still makes keeps its reply window. -/
structure Engine.KeepsPace (e e' : Engine) : Prop where
  off : e'.state = .off → e.state = .off
  frameGap : e'.frameGap = e.frameGap
  attempt : ∀ a', e'.attempt = some a' → ∃ a, e.attempt = some a ∧ a'.replyWindow = a.replyWindow

theorem Engine.KeepsPace.refl (e : Engine) : e.KeepsPace e := ⟨id, rfl, fun a h => ⟨a, h, rfl⟩⟩

theorem Engine.KeepsPace.trans {e e' e'' : Engine} (h : e.KeepsPace e') (k : e'.KeepsPace e'') : e.KeepsPace e'' where
  off hs := h.off (k.off hs)
  frameGap := k.frameGap.trans h.frameGap
  attempt a hk := by
    obtain ⟨a', ha', hw'⟩ := k.attempt a hk
    obtain ⟨a'', ha'', hw''⟩ := h.attempt a' ha'
    exact ⟨a'', ha'', hw'.trans hw''⟩

theorem Engine.KeepsPace.paced {e e' : Engine} (h : e.KeepsPace e') (hp : e.Paced) : e'.Paced := by
  refine ⟨by rw [h.frameGap]; exact hp.1, fun a' ha' => ?_⟩
  obtain ⟨a, ha, hw⟩ := h.attempt a' ha'
  rw [hw]; exact hp.2 a ha

/-- An update that touches neither the state nor the frame gap nor the attempt. -/
theorem Engine.KeepsPace.of_eq {e e' : Engine} (hs : e'.state = e.state) (hg : e'.frameGap = e.frameGap)
    (ha : e'.attempt = e.attempt) : e.KeepsPace e' :=
  ⟨fun h => hs ▸ h, hg, fun a h => ⟨a, ha ▸ h, rfl⟩⟩

section Samples

variable (l : Line) (s : State)

theorem endAttempt_keepsPace (o : Outcome) : (s.engine l).KeepsPace ((endAttempt l o s).engine l) := by
  cases ha : (s.engine l).attempt with
  | none =>
    have : endAttempt l o s = s := by simp only [endAttempt, ha]
    rw [this]; exact .refl _
  | some a =>
    obtain ⟨hs, hnone, -, hgap, -⟩ := endAttempt_fields l o ha
    exact ⟨by simp [hs], hgap, by simp [hnone]⟩

theorem startEdge_keepsPace : (s.engine l).KeepsPace ((startEdge l s).engine l) := by
  unfold startEdge
  dsimp only
  split
  · exact .refl _
  · rw [State.setEngine_same]; exact .of_eq rfl rfl rfl

theorem countStray_keepsPace : (s.engine l).KeepsPace ((countStray l s).engine l) := by
  rw [countStray, State.setEngine_same]; exact .of_eq rfl rfl rfl

theorem falseStart_keepsPace : (s.engine l).KeepsPace ((falseStart l s).engine l) := by
  have dropped : (s.engine l).KeepsPace ((s.setEngine l { s.engine l with rx := { prev := some true, char := none } }).engine l) := by
    rw [State.setEngine_same]; exact .of_eq rfl rfl rfl
  unfold falseStart
  dsimp only
  split
  · exact .refl _
  · split
    · split
      · exact dropped.trans (endAttempt_keepsPace ..)
      · exact dropped
    · exact dropped

theorem storePayload_engine (x : Option (Nat × Byte)) (k : Line) : (storePayload l x s).engine k = s.engine k := by
  unfold storePayload; split <;> rfl

variable {l s} {a a' : Attempt}

/-- An engine that goes on in another state with the attempt it makes. -/
theorem Engine.KeepsPace.of_attempt {e e' : Engine} (ha : e.attempt = some a) (ha' : e'.attempt = some a')
    (hw : a'.replyWindow = a.replyWindow) (hs : e'.state ≠ .off) (hg : e'.frameGap = e.frameGap) : e.KeepsPace e' :=
  ⟨fun h => absurd h hs, hg, fun _ h => ⟨a, ha, by rw [ha'] at h; cases h; exact hw⟩⟩

theorem applyJudgement_keepsPace (j : Judgement) (ha : (s.engine l).attempt = some a) (hw : a'.replyWindow = a.replyWindow)
    (hs : (s.engine l).state ≠ .off) : (s.engine l).KeepsPace ((applyJudgement l a' j s).engine l) := by
  cases j with
  | more r x =>
    rw [applyJudgement, storePayload_engine, State.setEngine_same]
    exact .of_attempt ha rfl hw (by simp) rfl
  | failed o =>
    rw [applyJudgement, enterQuiet, State.setEngine_same]
    exact .of_attempt ha rfl hw (by simp) rfl
  | whole o r =>
    rw [applyJudgement]
    refine Engine.KeepsPace.trans ?_ (endAttempt_keepsPace ..)
    rw [State.setEngine_same]
    exact .of_attempt ha rfl hw hs rfl

theorem awaitCharacter_keepsPace (p : RxProgress) (c : RxChar) (ha : (s.engine l).attempt = some a) :
    (s.engine l).KeepsPace ((awaitCharacter l p c a s).engine l) := by
  unfold awaitCharacter
  split
  · rw [headFound_judged p.capture c ha]
    have arrived : (s.engine l).KeepsPace ((s.engine l).arrive p.capture) :=
      .of_attempt ha (a' := { a with arrival := some p.capture, reply := none }) (by simp [Engine.arrive, ha]) rfl
        (by simp [Engine.arrive]) rfl
    refine Engine.KeepsPace.trans (e' := (s.setEngine l ((s.engine l).arrive p.capture)).engine l) ?_ ?_
    · rw [State.setEngine_same]; exact arrived
    · exact applyJudgement_keepsPace (a := { a with arrival := some p.capture, reply := none }) _
        (by simp [Engine.arrive, ha]) rfl (by simp [Engine.arrive])
  · split
    · exact (countStray_keepsPace ..).trans (endAttempt_keepsPace ..)
    · exact countStray_keepsPace ..

theorem handleCharacter_keepsPace (p : RxProgress) (c : RxChar) :
    (s.engine l).KeepsPace ((handleCharacter l p c s).engine l) := by
  unfold handleCharacter
  split
  · exact countStray_keepsPace ..
  · exact countStray_keepsPace ..
  · rename_i a hs ha
    unfold echoCharacter
    split
    · rw [State.setEngine_same]; exact .of_attempt ha rfl rfl (by simp [hs]) rfl
    · exact .refl _
  · rename_i a hs ha
    exact awaitCharacter_keepsPace p c ha
  · rename_i a hs ha
    unfold replyCharacter
    split
    · exact applyJudgement_keepsPace _ ha rfl (by simp [hs])
    · exact .refl _
  · exact .refl _

theorem completeCharacter_keepsPace (c : RxChar) : (s.engine l).KeepsPace ((completeCharacter l c s).engine l) := by
  unfold completeCharacter
  split
  · exact .refl _
  · refine Engine.KeepsPace.trans ?_ (handleCharacter_keepsPace ..)
    rw [State.setEngine_same]; exact .of_eq rfl rfl rfl

end Samples

/-! ## One sample (R3) -/

theorem InputPin.sample_eq_after (p : InputPin) : p.sample = p.after := by
  obtain ⟨level, upcoming⟩ := p
  cases upcoming <;> rfl

/-- A line's sample, once the pin has been read. -/
def sampleAt (l : Line) (level : Bool) (v : State) : State :=
  rememberSample l level
    (match (v.engine l).rx.char with
      | some p => sampleCharacter l level p v
      | none => if level = false ∧ (v.engine l).rx.prev = some true then startEdge l v else v)

theorem sampleLine_eq (l : Line) (s : State) :
    sampleLine l s = sampleAt l (s.inputs.rx.get l).after.level
      { s with inputs := { s.inputs with rx := s.inputs.rx.set l (s.inputs.rx.get l).after } } := by
  unfold sampleLine
  rw [InputPin.sample_eq_after]
  rfl

section Sample

variable {l : Line} {v : State} {level : Bool}

theorem rememberSample_off (h : (v.engine l).state = .off) : rememberSample l level v = v := if_pos h

theorem rememberSample_seen (h : (v.engine l).state ≠ .off) : rememberSample l level v = v.seen l level := if_neg h

theorem seen_keepsPace : (v.engine l).KeepsPace ((v.seen l level).engine l) := by
  rw [State.seen, State.setEngine_same]; exact .of_eq rfl rfl rfl

theorem rememberSample_keepsPace : (v.engine l).KeepsPace ((rememberSample l level v).engine l) := by
  by_cases h : (v.engine l).state = .off
  · rw [rememberSample_off h]; exact .refl _
  · rw [rememberSample_seen h]; exact seen_keepsPace

/-! ### A sample within a character -/

/-- The votes of a position with the sample now taken: one at sixteenths 6, 8 and 10 (R3). -/
def votesAfter (level : Bool) (p : RxProgress) : List Bool :=
  if (p.count + 1) % 16 = 6 ∨ (p.count + 1) % 16 = 8 ∨ (p.count + 1) % 16 = 10 then level :: p.votes else p.votes

variable {p : RxProgress}

theorem sampleCharacter_vote (h : (p.count + 1) % 16 ≠ 10) :
    sampleCharacter l level p v = v.setEngine l { v.engine l with
      rx := { (v.engine l).rx with char := some { p with count := p.count + 1, votes := votesAfter level p } } } := if_neg h

theorem sampleCharacter_falseStart (h : p.count + 1 = 10) (hb : majority (votesAfter level p) = true) :
    sampleCharacter l level p v = falseStart l v :=
  (if_pos (by omega)).trans (if_pos ⟨by omega, hb⟩)

theorem sampleCharacter_complete (h : p.count + 1 = 170) :
    sampleCharacter l level p v = completeCharacter l (rxCharOf (p.bits ++ [majority (votesAfter level p)])) v :=
  (if_pos (by omega)).trans ((if_neg fun hn => by omega).trans (if_pos (by omega)))

theorem sampleCharacter_bit (h : (p.count + 1) % 16 = 10) (hstart : ¬ (p.count + 1 = 10 ∧ majority (votesAfter level p) = true))
    (hlast : p.count + 1 ≠ 170) :
    sampleCharacter l level p v = v.setEngine l { v.engine l with
      rx := { (v.engine l).rx with
        char := some { p with count := p.count + 1, votes := [], bits := p.bits ++ [majority (votesAfter level p)] } } } :=
  (if_pos h).trans ((if_neg fun hn => hstart ⟨by omega, hn.2⟩).trans (if_neg (by omega)))

theorem sampleCharacter_keepsPace (p : RxProgress) : (v.engine l).KeepsPace ((sampleCharacter l level p v).engine l) := by
  by_cases h : (p.count + 1) % 16 = 10
  · by_cases hstart : p.count + 1 = 10 ∧ majority (votesAfter level p) = true
    · rw [sampleCharacter_falseStart hstart.1 hstart.2]; exact falseStart_keepsPace ..
    · by_cases hlast : p.count + 1 = 170
      · rw [sampleCharacter_complete hlast]; exact completeCharacter_keepsPace ..
      · rw [sampleCharacter_bit h hstart hlast, State.setEngine_same]; exact .of_eq rfl rfl rfl
  · rw [sampleCharacter_vote h, State.setEngine_same]; exact .of_eq rfl rfl rfl

theorem sampleAt_keepsPace : (v.engine l).KeepsPace ((sampleAt l level v).engine l) := by
  unfold sampleAt
  refine Engine.KeepsPace.trans ?_ rememberSample_keepsPace
  split
  · exact sampleCharacter_keepsPace _
  · split
    · exact startEdge_keepsPace ..
    · exact .refl _

/-- A sample outside a character: a start edge at a 0 after a 1, else the level is remembered. -/
theorem sampleAt_noChar (hc : (v.engine l).rx.char = none) :
    sampleAt l level v = rememberSample l level
      (if level = false ∧ (v.engine l).rx.prev = some true then startEdge l v else v) := by
  simp only [sampleAt, hc]

theorem sampleAt_char {p : RxProgress} (hc : (v.engine l).rx.char = some p) :
    sampleAt l level v = rememberSample l level (sampleCharacter l level p v) := by
  simp only [sampleAt, hc]

/-- A start edge is remembered as the 0 that it is. -/
theorem sampleAt_edge (hs : (v.engine l).state ≠ .off) (hc : (v.engine l).rx.char = none) (hl : level = false)
    (hp : (v.engine l).rx.prev = some true) : sampleAt l level v = startEdge l v := by
  rw [sampleAt_noChar hc, if_pos ⟨hl, hp⟩, startEdge_seen hs hc (by simp [hp]),
    rememberSample_seen (by rw [State.setEngine_same]; exact hs), State.seen, hl]
  simp

theorem majority_eq (votes : List Bool) : majority votes = decide (2 ≤ votes.count true) := by
  unfold majority List.count
  congr 3
  funext b; cases b <;> rfl

/-- The data bits of a character, least significant first (section 1.2). -/
theorem byteOfBools_eq (d0 d1 d2 d3 d4 d5 d6 d7 : Bool) :
    rxCharOf.byteOfBools [d0, d1, d2, d3, d4, d5, d6, d7] = BitVec.ofBoolListLE [d0, d1, d2, d3, d4, d5, d6, d7] := by
  revert d0 d1 d2 d3 d4 d5 d6 d7
  decide

/-- The character that eleven decided positions make (section 1.2). -/
theorem rxCharOf_bits (start d0 d1 d2 d3 d4 d5 d6 d7 head stop : Bool) :
    rxCharOf ([start, d0, d1, d2, d3, d4, d5, d6, d7, head] ++ [stop]) =
      { byte := BitVec.ofBoolListLE [d0, d1, d2, d3, d4, d5, d6, d7], head := head, framing := !stop } := by
  rw [← byteOfBools_eq]; rfl

/-- A sample does at a line what R1 and R3 say, by what the receiver is about. -/
theorem sampleAt_acts (hr : v.inReset = false) : SampleActs v l level (sampleAt l level v) := by
  refine ⟨fun hs hc => ?_, fun hs hc => ⟨fun hl hp => ?_, fun hn => ?_⟩, fun p hs hc => ?_⟩
  · rw [sampleAt_noChar hc, startEdge_unseen (.inl hs), ite_self, rememberSample_off hs]
  · rw [exec_startEdge hr, sampleAt_edge hs hc hl hp]
  · rw [sampleAt_noChar hc, if_neg hn, rememberSample_seen hs]
  · intro n votes bit goesOn
    have hbit : bit = majority (votesAfter level p) := (majority_eq _).symm
    rw [sampleAt_char hc]
    refine ⟨fun h => ?_, fun h hstart hlast => ?_, fun h hb => ?_, fun start d0 d1 d2 d3 d4 d5 d6 d7 head h hbits => ?_⟩
    · rw [sampleCharacter_vote h, rememberSample_seen (by rw [State.setEngine_same]; exact hs)]
      rfl
    · rw [sampleCharacter_bit h (by rw [← hbit]; exact hstart) hlast, rememberSample_seen (by rw [State.setEngine_same]; exact hs), ← hbit]
    · rw [sampleCharacter_falseStart h (by rw [← hbit]; exact hb),
        rememberSample_seen fun hoff => hs ((falseStart_keepsPace l v).off hoff)]
      exact ⟨_, exec_falseStart hr l, rfl⟩
    · rw [sampleCharacter_complete h, ← hbit, hbits, rxCharOf_bits,
        rememberSample_seen fun hoff => hs ((completeCharacter_keepsPace _).off hoff)]
      refine ⟨_, exec_receivedCharacter hr .., ?_⟩
      rw [startEdge_unseen (.inr (.inl (by rw [show (v.engine l).rx.char = some p from hc]; rfl)))]

/-- Outside a character a sample changes what the receiver has seen, and the idle span, alone. -/
theorem sampleAt_noChar_engine (hc : (v.engine l).rx.char = none) :
    ∃ rx idle, (sampleAt l level v).engine l = { v.engine l with rx := rx, idle := idle } := by
  have remembered : ∀ u : State, (∃ rx idle, u.engine l = { v.engine l with rx := rx, idle := idle }) →
      ∃ rx idle, (rememberSample l level u).engine l = { v.engine l with rx := rx, idle := idle } := by
    rintro u ⟨rx, idle, hu⟩
    unfold rememberSample
    dsimp only
    split
    · exact ⟨rx, idle, hu⟩
    · rw [State.setEngine_same, hu]; exact ⟨_, _, rfl⟩
  rw [sampleAt_noChar hc]
  refine remembered _ ?_
  split
  · unfold startEdge
    dsimp only
    split
    · exact ⟨_, _, rfl⟩
    · rw [State.setEngine_same]; exact ⟨_, _, rfl⟩
  · exact ⟨_, _, rfl⟩

end Sample

/-! ## A line's part of a period -/

section LineAct

variable {l : Line} {s : State}

/-- The state with a line's sample taken from its pin, which leaves the pin as given. -/
def State.sampled (s : State) (l : Line) (pin : InputPin) : State :=
  { s.setEngine l { s.engine l with sampleClock := 0 } with inputs := { s.inputs with rx := s.inputs.rx.set l pin } }

@[simp] theorem State.sampled_engine (s : State) (l : Line) (pin : InputPin) :
    (s.sampled l pin).engine l = { s.engine l with sampleClock := 0 } := State.setEngine_same ..

/-- The pin of a line after its next sample. -/
def State.nextPin (s : State) (l : Line) : InputPin := (s.inputs.rx.get l).after

theorem lineSample_due (h : (s.engine l).divisor.toNat + 1 ≤ (s.engine l).sampleClock) :
    lineSample l s = sampleAt l (s.nextPin l).level (s.sampled l (s.nextPin l)) :=
  (if_pos h).trans (sampleLine_eq l _)

theorem lineSample_notDue (h : (s.engine l).sampleClock < (s.engine l).divisor.toNat + 1) : lineSample l s = s :=
  if_neg (Nat.not_le.mpr h)

theorem lineAct_late (h : ¬ (((s.engine l).state = .transmit ∨ (s.engine l).state = .gap) ∧ (s.engine l).rx.char = none
    ∧ (s.engine l).SpanOver)) : lineAct l s = lineMoment l (lineMoment l (lineSample l s)) := by
  have first : (if ((s.engine l).state = .transmit ∨ (s.engine l).state = .gap) ∧ (s.engine l).rx.char = none then lineMoment l s
      else s) = s := by
    split
    · rename_i hc; exact lineMoment_none fun ho => h ⟨hc.1, hc.2, ho⟩
    · rfl
  unfold lineAct
  dsimp only
  rw [first]

theorem lineAct_early (hs : (s.engine l).state = .transmit ∨ (s.engine l).state = .gap) (hc : (s.engine l).rx.char = none) :
    lineAct l s = lineMoment l (lineMoment l (lineSample l (lineMoment l s))) := by
  unfold lineAct
  dsimp only
  rw [if_pos ⟨hs, hc⟩]

/-- What the end of a sent character or of a frame gap leaves of the clocks of a line: the sample clock runs on and no character comes
into reception, unless the line is turned OFF. -/
structure Engine.KeepsClocks (e e' : Engine) : Prop where
  divisor : e'.divisor = e.divisor
  sampleClock : e'.sampleClock = e.sampleClock
  noChar : e.rx.char = none → e'.rx.char = none

theorem characterSent_keepsClocks (hs : (s.engine l).state = .transmit) (hd : (s.engine l).disabling = false) :
    (s.engine l).KeepsClocks ((characterSent l s).engine l) := by
  rcases characterSent_cases hs with ⟨h, -⟩ | ⟨-, -, h⟩ | ⟨-, a, ha, ⟨o, h⟩ | h | h⟩
  · simp [hd] at h
  · rw [h]; exact ⟨rfl, rfl, id⟩
  · obtain ⟨-, -, -, -, hdiv, hclock, hrx⟩ := endAttempt_fields l o ha
    rw [h]; exact ⟨hdiv, hclock, fun hc => by rw [hrx]; exact hc⟩
  · rw [h, nextCharacter, State.setEngine_same]; exact ⟨rfl, rfl, id⟩
  · rw [h, State.setEngine_same]; exact ⟨rfl, rfl, id⟩

theorem frameGapEnd_keepsClocks (hs : (s.engine l).state = .gap) : (s.engine l).KeepsClocks ((frameGapEnd l s).engine l) := by
  rcases frameGapEnd_walked l s hs with ⟨_, _, _, _, _, _, h⟩ | ⟨_, _, -, _, _, _, _, _, _, h⟩
  · rw [h]; exact ⟨rfl, rfl, id⟩
  · rw [h]; exact ⟨rfl, rfl, fun hc => by simp [Receiver.forget, hc]⟩

end LineAct

end Sys2Proof.Machine
end

section
/-! A reference clock period (log 2, log 18). -/

namespace Sys2Proof.Machine

/-! ## When a line acts -/

section LineDue

variable {l : Line} {s : State}

theorem lineDue_of_sample {e : Engine} (h : e.divisor.toNat + 1 ≤ e.sampleClock) : lineDue e = true := by
  have hd : decide (e.samplePeriod ≤ e.sampleClock) = true := decide_eq_true h
  simp only [lineDue, hd, Bool.true_or]

theorem lineDue_of_span {e : Engine} (h : e.SpanOver) : lineDue e = true := by
  unfold lineDue
  rw [Bool.or_eq_true]
  refine .inr ?_
  cases hs : e.state <;> simp only [Engine.SpanOver, hs] at h
  case transmit =>
    obtain ⟨c, hc, h⟩ := h
    simp only [hc, Option.any_some]; exact decide_eq_true h
  case await =>
    obtain ⟨a, ha, -, h⟩ := h
    simpa [Engine.bits, Engine.window, ha] using h
  case receive => exact decide_eq_true h.2
  case quiet =>
    rcases h with h | ⟨a, ha, h⟩
    · rw [Bool.or_eq_true]; exact .inl (decide_eq_true h)
    · rw [Bool.or_eq_true]; exact .inr (by simpa [Engine.bits, Engine.window, ha] using h)
  case gap => exact decide_eq_true h

theorem Actor.act_notDue {x : Actor} (h : x.due s = false) : x.act s = s := by
  unfold Actor.act; rw [if_neg (by simp [h])]

theorem Actor.act_line (h : lineDue (s.engine l) = true) : (Actor.line l).act s = lineAct l s := if_pos h

/-! ## A line's part of a period -/

/-- After a sample outside a character an engine at rest stays at rest: the period's moments bring nothing more. -/
theorem lineMoments_afterSample {pin : InputPin} {level : Bool} (hstill : (s.engine l).Still) (hc : (s.engine l).rx.char = none) :
    lineMoment l (lineMoment l (sampleAt l level (s.sampled l pin))) = sampleAt l level (s.sampled l pin) := by
  have rest : ((sampleAt l level (s.sampled l pin)).engine l).Still := by
    obtain ⟨rx, idle, he⟩ := sampleAt_noChar_engine (v := s.sampled l pin) (l := l) (level := level) (by simpa using hc)
    rw [he, State.sampled_engine]
    exact hstill.sampled rx idle 0
  rw [lineMoment_still rest, lineMoment_still rest]

/-- The end of a sent character or of a frame gap comes before a sample outside a character, which is then all that is left to do
(log 18). -/
theorem lineAct_sampleLast {w : State} (hs : (s.engine l).state = .transmit ∨ (s.engine l).state = .gap)
    (hc : (s.engine l).rx.char = none) (hdue : (s.engine l).divisor.toNat + 1 ≤ (s.engine l).sampleClock)
    (hm : lineMoment l s = w) (hstill : (w.engine l).Still) (hclocks : (s.engine l).KeepsClocks (w.engine l)) :
    lineAct l s = sampleAt l (w.nextPin l).level (w.sampled l (w.nextPin l)) := by
  rw [lineAct_early hs hc, hm, lineSample_due (by rw [hclocks.divisor, hclocks.sampleClock]; exact hdue)]
  exact lineMoments_afterSample hstill (hclocks.noChar hc)

theorem sampleAt_paced {pin : InputPin} {level : Bool} (hp : (s.engine l).Paced) :
    ((sampleAt l level (s.sampled l pin)).engine l).Paced := by
  refine sampleAt_keepsPace.paced ?_
  rw [State.sampled_engine]; exact hp

/-- The end of a sent character or of a frame gap leaves the engine at rest, with its sample no nearer (R1). -/
theorem lineMoment_early (hp : (s.engine l).Paced) (hs : (s.engine l).state = .transmit ∨ (s.engine l).state = .gap)
    (ho : (s.engine l).SpanOver) : ((lineMoment l s).engine l).Still
      ∧ ((s.engine l).sampleClock < (s.engine l).divisor.toNat + 1 →
        ((lineMoment l s).engine l).sampleClock < ((lineMoment l s).engine l).divisor.toNat + 1) := by
  have clocks : ∀ e' : Engine, (s.engine l).KeepsClocks e' → (s.engine l).sampleClock < (s.engine l).divisor.toNat + 1 →
      e'.sampleClock < e'.divisor.toNat + 1 := fun e' h hclock => by rw [h.sampleClock, h.divisor]; exact hclock
  rcases hs with hs | hs
  · rw [lineMoment_transmit hs ho]
    refine ⟨characterSent_still hp hs, ?_⟩
    cases hd : (s.engine l).disabling with
    | true =>
      rw [characterSent_disabling hs hd, State.setEngine_same]
      exact fun _ => Nat.succ_pos _
    | false => exact clocks _ (characterSent_keepsClocks hs hd)
  · rw [lineMoment_gap hs ho]
    exact ⟨frameGapEnd_still hs, clocks _ (frameGapEnd_keepsClocks hs)⟩

/-- With no sample due, the end of a span does what its row says, whether or not it would come before a sample (log 18). -/
theorem lineAct_span (hr : s.inReset = false) (hp : (s.engine l).Paced)
    (hclock : (s.engine l).sampleClock < (s.engine l).divisor.toNat + 1) (ho : (s.engine l).SpanOver) :
    SpanActs s l (lineAct l s) := by
  by_cases hearly : ((s.engine l).state = .transmit ∨ (s.engine l).state = .gap) ∧ (s.engine l).rx.char = none
  · obtain ⟨hstill, hlater⟩ := lineMoment_early hp hearly.1 ho
    have once : lineAct l s = lineMoment l (lineMoment l s) := by
      rw [lineAct_early hearly.1 hearly.2, lineSample_notDue (hlater hclock), lineMoment_still hstill, lineMoment_still hstill]
    rw [once]
    exact lineMoments_spanActs hr hp ho
  · rw [lineAct_late fun h => hearly ⟨h.1, h.2.1⟩, lineSample_notDue hclock]
    exact lineMoments_spanActs hr hp ho

theorem sampleCharacter_lineFrame (level : Bool) (p : RxProgress) : LineFrame l s (sampleCharacter l level p s) := by
  by_cases h : (p.count + 1) % 16 = 10
  · by_cases hstart : p.count + 1 = 10 ∧ majority (votesAfter level p) = true
    · rw [sampleCharacter_falseStart hstart.1 hstart.2]; exact falseStart_lineFrame ..
    · by_cases hlast : p.count + 1 = 170
      · rw [sampleCharacter_complete hlast]; exact completeCharacter_lineFrame ..
      · rw [sampleCharacter_bit h hstart hlast]; exact setEngine_lineFrame ..
  · rw [sampleCharacter_vote h]; exact setEngine_lineFrame ..

theorem rememberSample_lineFrame (level : Bool) : LineFrame l s (rememberSample l level s) := by
  unfold rememberSample
  dsimp only
  split
  · exact .refl _ _
  · exact setEngine_lineFrame ..

theorem sampleAt_lineFrame (level : Bool) : LineFrame l s (sampleAt l level s) := by
  unfold sampleAt
  refine LineFrame.trans ?_ (rememberSample_lineFrame level)
  split
  · exact sampleCharacter_lineFrame ..
  · split
    · exact startEdge_lineFrame ..
    · exact .refl _ _

/-- A sample that falls due comes before the end of a span, unless a sent character or a frame gap ends outside a character (log 18). -/
theorem lineAct_sampleFirst (hr : s.inReset = false) (hp : (s.engine l).Paced)
    (hdue : (s.engine l).divisor.toNat + 1 ≤ (s.engine l).sampleClock)
    (hn : ¬ (((s.engine l).state = .transmit ∨ (s.engine l).state = .gap) ∧ (s.engine l).rx.char = none ∧ (s.engine l).SpanOver)) :
    ∃ w, SampleActs (s.sampled l (s.nextPin l)) l (s.nextPin l).level w
      ∧ ((w.engine l).SpanOver → SpanActs w l (lineAct l s)) ∧ (¬ (w.engine l).SpanOver → lineAct l s = w) := by
  refine ⟨sampleAt l (s.nextPin l).level (s.sampled l (s.nextPin l)), sampleAt_acts hr, fun ho => ?_, fun ho => ?_⟩
  · rw [lineAct_late hn, lineSample_due hdue]
    exact lineMoments_spanActs ((sampleAt_lineFrame _).inReset.trans hr) (sampleAt_paced hp) ho
  · rw [lineAct_late hn, lineSample_due hdue, lineMoment_none ho, lineMoment_none ho]

theorem LineFrame.nextPin {w : State} (h : LineFrame l s w) : w.nextPin l = s.nextPin l := by rw [State.nextPin, h.inputs]; rfl

/-- The row of a sent character comes before a sample that is outside a character (log 18). -/
theorem lineAct_transmit (hr : s.inReset = false) (hp : (s.engine l).Paced)
    (hdue : (s.engine l).divisor.toNat + 1 ≤ (s.engine l).sampleClock) (hs : (s.engine l).state = .transmit)
    (hc : (s.engine l).rx.char = none) (ho : (s.engine l).SpanOver) (hd : (s.engine l).disabling = false) :
    ∃ w, exec (.characterTransmitted l) s = .next w
      ∧ SampleActs (w.sampled l (s.nextPin l)) l (s.nextPin l).level (lineAct l s) := by
  have frame := characterSent_lineFrame l s
  refine ⟨_, exec_characterTransmitted hr l, ?_⟩
  rw [lineAct_sampleLast (.inl hs) hc hdue (lineMoment_transmit hs ho) (characterSent_still hp hs) (characterSent_keepsClocks hs hd),
    frame.nextPin]
  exact sampleAt_acts (frame.inReset.trans hr)

/-- The row of a frame gap comes before a sample that is outside a character (log 18). -/
theorem lineAct_gap (hr : s.inReset = false) (hdue : (s.engine l).divisor.toNat + 1 ≤ (s.engine l).sampleClock)
    (hs : (s.engine l).state = .gap) (hc : (s.engine l).rx.char = none) (ho : (s.engine l).SpanOver) :
    ∃ w, exec (.frameGapEnd l) s = .next w
      ∧ SampleActs (w.sampled l (s.nextPin l)) l (s.nextPin l).level (lineAct l s) := by
  have frame := frameGapEnd_lineFrame l s
  refine ⟨_, exec_frameGapEnd hr l, ?_⟩
  rw [lineAct_sampleLast (.inr hs) hc hdue (lineMoment_gap hs ho) (frameGapEnd_still hs) (frameGapEnd_keepsClocks hs), frame.nextPin]
  exact sampleAt_acts (frame.inReset.trans hr)

end LineDue

/-! ## The timer and the store in a period -/

section TimerAndStore

variable {s : State}

/-- A tick with nothing owed before it (R14, log 8). -/
theorem exec_tick_settled (hr : s.inReset = false) (hrun : s.timer.cycleRunning = true) (h : s.Settled) :
    exec .tick s = .next (completeTick s) := by
  have run : exec .tick s = .next (if s.timer.cycleRunning then completeTick (settle s) else s) := by
    rw [← State.event_run hr fun t => if t.timer.cycleRunning then completeTick (settle t) else t]; rfl
  rw [run, if_pos hrun, settle_settled h]

theorem exec_syncFallingEdge (hr : s.inReset = false) : exec .syncFallingEdge s = .next (syncEdge s) := by
  rw [← State.event_run hr syncEdge]; rfl

theorem exec_changeoverCheckEnd (hr : s.inReset = false) : exec .changeoverCheckEnd s = .next (endCheck s) := by
  rw [← State.event_run hr endCheck]; rfl

theorem exec_copyComplete (hr : s.inReset = false) : exec .copyComplete s = .next (endCopy s) := by
  rw [← State.event_run hr endCopy]; rfl

theorem Actor.due_timer : Actor.timer.due s = true ↔
    s.timer.cycleRunning = true ∧ 16 * (s.timer.prescaler.toNat + 1) ≤ s.timer.subTick := by
  rw [← decide_eq_true_iff (p := 16 * (s.timer.prescaler.toNat + 1) ≤ s.timer.subTick), ← Bool.and_eq_true]; rfl

theorem Actor.due_sync : Actor.sync.due s = true ↔
    s.timer.mode = .follow ∧ s.timer.prevSync = some true ∧ s.inputs.sync.level = false := by
  simp [Actor.due, syncFalls, Timer.samplesSync, and_assoc]

theorem Actor.due_store : Actor.store.due s = true ↔ s.schedule.changeover = .checking ∨ s.schedule.copy.isSome = true := by
  simp [Actor.due]

/-- A check that has not ended, standing at a count or an entry. -/
def State.checkingAt (s : State) (p : Option CheckPos) : State := s.withSchedule { s.schedule with checkPos := p }

/-- The end of a check does not depend on where it stands. -/
theorem endCheck_checkingAt (p : Option CheckPos) (h : s.schedule.changeover = .checking) :
    endCheck (s.checkingAt p) = endCheck s := by
  unfold endCheck
  rw [if_pos h, if_pos (show (s.checkingAt p).schedule.changeover = .checking from h)]
  rfl

theorem endCheck_checkPos (h : s.schedule.changeover = .checking) : (endCheck s).schedule.checkPos = none := by
  unfold endCheck
  rw [if_pos h]
  split
  · rfl
  · rw [State.appendEvent_schedule]; rfl

/-- What the check examines next either ends it or moves it on (R41). -/
theorem checkMove_cases : checkMove s = s ∨ checkMove s = endCheck s ∨ ∃ p, checkMove s = s.checkingAt p := by
  unfold checkMove
  split
  · exact .inl rfl
  · extract_lets t failed
    by_cases hf : failed = true
    · rw [if_pos hf]; exact .inr (.inl rfl)
    · rw [if_neg hf]
      split
      · exact .inr (.inr ⟨_, rfl⟩)
      · split
        · exact .inr (.inr ⟨_, rfl⟩)
        · exact .inr (.inl rfl)

theorem checkMoves_ended (n : Nat) (h : s.schedule.checkPos = none) : checkMoves n s = s := by
  induction n with
  | zero => rfl
  | succ n ih =>
    have : checkMove s = s := by simp only [checkMove, h]
    rw [checkMoves, this, ih]

/-- However many counts and entries it examines, the check has ended or stands somewhere (R41, log 7). -/
theorem checkMoves_cases (n : Nat) (h : s.schedule.changeover = .checking) :
    ∀ p, checkMoves n (s.checkingAt p) = endCheck s ∨ ∃ q, checkMoves n (s.checkingAt p) = s.checkingAt q := by
  induction n with
  | zero => exact fun p => .inr ⟨p, rfl⟩
  | succ n ih =>
    intro p
    rw [checkMoves]
    rcases checkMove_cases (s := s.checkingAt p) with hm | hm | ⟨q, hm⟩
    · rw [hm]; exact ih p
    · rw [hm, endCheck_checkingAt p h, checkMoves_ended n (endCheck_checkPos h)]; exact .inl rfl
    · rw [hm]; exact ih q

/-- The store's part of a check: it ends, by 160 periods at the latest, or stands somewhere (R41 to R43). -/
theorem Actor.act_store_check (h : s.schedule.changeover = .checking) :
    (160 ≤ s.schedule.age → Actor.store.act s = endCheck s.drawn)
    ∧ (Actor.store.act s = endCheck s.drawn ∨ ∃ p, Actor.store.act s = s.drawn.checkingAt p) := by
  have acts : Actor.store.act s = if Config.checkBound ≤ s.schedule.age then endCheck s.drawn
      else checkMoves (Config.freeCheckMoves s.choices) s.drawn :=
    (if_pos (Actor.due_store.mpr (.inl h))).trans (if_pos h)
  refine ⟨fun hage => acts.trans (if_pos hage), ?_⟩
  by_cases hage : Config.checkBound ≤ s.schedule.age
  · exact .inl (acts.trans (if_pos hage))
  · rw [acts, if_neg hage]
    exact checkMoves_cases _ (s := s.drawn) h s.schedule.checkPos

/-- The store's part of a copy: it ends, by 1100 periods at the latest, or runs on (R47). -/
theorem Actor.act_store_copy (h : s.schedule.changeover ≠ .checking) (hc : s.schedule.copy.isSome = true) :
    (1100 ≤ s.schedule.age → Actor.store.act s = endCopy s.drawn)
    ∧ (Actor.store.act s = endCopy s.drawn ∨ Actor.store.act s = s.drawn) := by
  have acts : Actor.store.act s = if Config.copyBound ≤ s.schedule.age then endCopy s.drawn
      else if Config.freeCopyEnds s.choices = true then endCopy s.drawn else s.drawn :=
    (if_pos (Actor.due_store.mpr (.inr hc))).trans ((if_neg h).trans (if_pos hc))
  refine ⟨fun hage => acts.trans (if_pos hage), ?_⟩
  rw [acts]
  split
  · exact .inl rfl
  · split
    · exact .inl rfl
    · exact .inr rfl

end TimerAndStore

/-! ## A period of the whole part (log 2, log 18) -/

theorem syncTaken_iff (v : State) : (v.timer.samplesSync && !syncFalls v) = true ↔
    v.timer.mode = .follow ∧ ¬ (v.timer.prevSync = some true ∧ v.inputs.sync.level = false) := by
  by_cases h : v.timer.mode = .follow <;> simp [Timer.samplesSync, syncFalls, h, imp_iff_not_or]

/-- The timer's part of the counting: SYNC is sampled in FOLLOW mode, and a sample that is a falling edge is kept for its row (R17). -/
theorem countTimer_eq_later (s : State) : countTimer s = (s.withTimer s.later.timer).withInputs s.later.inputs := by
  have hlater : ∀ (p : Option Bool), s.later.timer.prevSync = p → s.later.timer = { s.timer with
      subTick := if s.timer.cycleRunning = true then s.timer.subTick + 1 else s.timer.subTick, prevSync := p } := by
    rintro _ rfl; rfl
  unfold countTimer
  rw [InputPin.sample_eq_after]
  extract_lets inputs s1 timer t s2
  have taken : (t.samplesSync && !syncFalls s2) = true ↔
      s.timer.mode = .follow ∧ ¬ (s.timer.prevSync = some true ∧ s.inputs.sync.level' = false) := syncTaken_iff s2
  by_cases h : s.timer.mode = .follow ∧ ¬ (s.timer.prevSync = some true ∧ s.inputs.sync.level' = false)
  · rw [if_pos (taken.mpr h), hlater (some s.inputs.sync.level') (if_pos h)]
    rfl
  · rw [if_neg fun hn => h (taken.mp hn), hlater s.timer.prevSync (if_neg h)]
    rfl

theorem countAll_eq_later (s : State) : countAll s = s.later := by
  unfold countAll
  rw [countTimer_eq_later]
  rfl

theorem shuffle_perm (n : Nat) (xs : List α) : (shuffle n xs).Perm xs := by
  induction xs generalizing n with
  | nil => exact .refl _
  | cons x xs ih =>
    rw [shuffle]
    exact List.perm_middle.trans (.cons x (by rw [List.take_append_drop]; exact ih _))

/-- The actors with something to do act in some order; the order of several is an open choice (log 18). -/
theorem dueActors_cases (s : State) : ∃ n, s.choices ≤ n ∧ (dueActors s).2 = { s with choices := n }
    ∧ (dueActors s).1.Perm ([.timer, .sync, .line .a, .line .b, .store].filter fun x => x.due s) := by
  unfold dueActors
  dsimp only
  split
  · exact ⟨_, le_rfl, rfl, .of_eq (Eq.symm ‹_›)⟩
  · exact ⟨_, le_rfl, rfl, .of_eq (Eq.symm ‹_›)⟩
  · exact ⟨_, Nat.le_succ _, rfl, shuffle_perm _ _⟩

/-- A step of an empty queue is a period from the state with what the moment before owes taken (log 2, log 8). -/
theorem passes_of_settleMoment {s u : State} (hr : s.inReset = false) (hp : s.pending = []) (h : settleMoment s = u) : Passes s u := by
  obtain ⟨n, hn, hs, horder⟩ := dueActors_cases u.later
  refine ⟨(dueActors u.later).1, n, hn, horder, ?_⟩
  have run : step s = .next (clockPeriod s) := by simp only [step, hp]
  rw [run, clockPeriod, if_neg (by simp [hr]), h, countAll_eq_later]
  dsimp only
  rw [hs]

/-! ## A slot owed from the moment before (log 8, log 25) -/

section Owed

variable {l : Line} {s : State}

theorem startAcyclic_unstartable (h : startable l s = none) : startAcyclic l s = s := by
  simp only [startAcyclic, h]

theorem openSlotEnd_noSlot (h : (s.engine l).slot = none) : openSlotEnd l s = s := by
  simp [openSlotEnd, openSlotOver, h]

theorem owes_iff : owes l s = true ↔ openSlotOver l s = true ∨ (startable l s).isSome = true
    ∨ ((s.engine l).state = .wait ∧ (s.engine l).slot = none ∧ (s.engine l).notice.isSome = true
      ∧ ∃ r, (s.engine l).next = some r ∧ r.entry.offset.toNat ≤ s.timer.value.toNat) := by
  simp [owes, Option.any_eq_true, and_assoc, or_assoc]

theorem startable_unowed (h : owes l s = false) : startable l s = none := by
  by_contra hn
  have : owes l s = true := owes_iff.mpr (.inr (.inl (Option.isSome_iff_ne_none.mpr hn)))
  simp [h] at this

theorem State.Settled.unowed (h : s.Settled) (l : Line) : owes l s = false := by
  cases l
  · exact h.1
  · exact h.2

/-- One line alone owes its steps. -/
theorem settle_one (h : owes l s = true) (hm : owes (otherLine l) s = false) : settle s = settleLine l s := by
  cases l <;> simp_all [settle, otherLine]

/-- A slot that is owed begins, and with nothing owed after it that is all. -/
theorem settleLine_slot {n : Notice} {r : ReadEntry} (h : Reached s l n r) (hu : owes l (slotBegin l s) = false) :
    settleLine l s = slotBegin l s := by
  obtain ⟨-, -, hslot, -⟩ := h
  have start := startAcyclic_unstartable (startable_unowed hu)
  rw [settleLine, openSlotEnd_noSlot hslot, start, start, start, start]

/-- No edge is claimed on a line that has not begun to send. -/
theorem claimEdge_idle {t : State} (h : (t.engine l).state = .transmit → (s.engine l).state = .transmit) : claimEdge l s t = t :=
  if_neg fun hc => hc.1 (h hc.2.2)

/-- The edge of a character that has no period behind it lies in the head of what begins to be sent (R13, log 9). -/
theorem claimEdge_walked {u : State} (hs : (s.engine l).state = .wait) (h : (s.engine l).Walked (u.engine l)) :
    claimEdge l s u = u.edgeInHead s l := by
  have waits : (s.engine l).state ≠ .transmit := by simp [hs]
  rcases h with h | ⟨a, byte, ha, next, walk, slot, snapshot, held, request, he⟩
  · have idle : (u.engine l).state ≠ .transmit := by simp [h.state, hs]
    rw [claimEdge_idle fun ht => absurd ht idle]
    unfold State.edgeInHead
    dsimp only
    split
    · rw [if_neg fun hc => idle hc.2.2]
    · rfl
  · have sends : (u.engine l).state = .transmit := by rw [he]
    have place : (u.engine l).edgePlace = .sending 0 := by
      rw [edgePlace_transmit sends (a := a) (by rw [he]), ha]
    have char : (u.engine l).rx.char = (s.engine l).rx.char.map fun p => { p with place := .elsewhere } := by rw [he]; rfl
    unfold claimEdge State.edgeInHead
    dsimp only
    rw [place, char]
    cases hc : (s.engine l).rx.char with
    | none => simp [Engine.edgeNow, hc]
    | some p => simp [Engine.edgeNow, hc, waits, sends]

theorem edgeInHead_engine {u : State} {m : Line} (h : m ≠ l) : (u.edgeInHead s l).engine m = u.engine m := by
  unfold State.edgeInHead
  dsimp only
  split
  · split
    · exact Two.get_set_other _ _ h
    · rfl
  · rfl

/-- The moment of an owed slot: the slot begins, with an edge of that moment in its head (R13). -/
theorem settleMoment_slot {n : Notice} {r : ReadEntry} (h : Reached s l n r) (hm : owes (otherLine l) s = false)
    (hu : (slotBegin l s).Settled) : settleMoment s = (slotBegin l s).edgeInHead s l := by
  obtain ⟨-, hwait, hslot, hnotice, hnext, hoffset⟩ := id h
  have hl : owes l s = true := owes_iff.mpr (.inr (.inr ⟨hwait, hslot, by rw [hnotice]; rfl, r, hnext, hoffset⟩))
  have begun : settle s = slotBegin l s := by
    rw [settle_one hl hm, settleLine_slot h (hu.unowed l)]
  have claimed : claimEdge l s (slotBegin l s) = (slotBegin l s).edgeInHead s l := claimEdge_walked hwait (slotBegin_walked l s)
  have frame := slotBegin_lineFrame l s
  unfold settleMoment
  dsimp only
  rw [begun]
  cases l with
  | a =>
    have idle : claimEdge .b s ((slotBegin .a s).edgeInHead s .a) = (slotBegin .a s).edgeInHead s .a :=
      claimEdge_idle fun ht => by rwa [edgeInHead_engine (by decide), frame.engine .b (by decide)] at ht
    rw [claimed, idle]
  | b =>
    have idle : claimEdge .a s (slotBegin .b s) = slotBegin .b s :=
      claimEdge_idle fun ht => by rwa [frame.engine .a (by decide)] at ht
    rw [idle, claimed]

end Owed

/-! ## The statement -/

/-- Settles O60, part by part: the actors that fall due, what each does alone, and the order they share. -/
theorem periodsCountAndSample : Obligations.PeriodsCountAndSample := by
  unfold Obligations.PeriodsCountAndSample
  refine ⟨fun s hr hp hs => passes_of_settleMoment hr hp (settleMoment_settled hs), fun s u l n r hr hp h hm hu hsettled => ?_,
    Engine.bitTime_eq, fun s hr => ⟨Actor.due_timer, Actor.due_sync, Actor.due_store, fun l h => h.elim lineDue_of_sample lineDue_of_span,
      fun x => Actor.act_notDue, fun hdue hs => ?_, fun hdue => ?_, ⟨fun h => ?_, fun h hc => ?_⟩, fun l hlegal => ?_⟩⟩
  · rw [exec_slotBegin hr] at hu
    cases hu
    exact passes_of_settleMoment hr hp (settleMoment_slot h hm hsettled)
  · rw [exec_tick_settled hr (Actor.due_timer.mp hdue).1 hs, Actor.act, if_pos hdue]
  · rw [exec_syncFallingEdge hr, Actor.act, if_pos hdue]
  · obtain ⟨hbound, hends⟩ := Actor.act_store_check h
    have row : exec .changeoverCheckEnd s.drawn = .next (endCheck s.drawn) := exec_changeoverCheckEnd hr
    exact ⟨fun hage => row.trans (by rw [hbound hage]), hends.imp (fun h => row.trans (by rw [h])) id⟩
  · obtain ⟨hbound, hends⟩ := Actor.act_store_copy h hc
    have row : exec .copyComplete s.drawn = .next (endCopy s.drawn) := exec_copyComplete hr
    exact ⟨fun hage => row.trans (by rw [hbound hage]), hends.imp (fun h => row.trans (by rw [h])) id⟩
  · have hp := hlegal.paced
    refine ⟨fun hdue => ?_, fun hclock ho => ?_⟩
    · rw [Actor.act_line (lineDue_of_sample hdue)]
      exact ⟨lineAct_sampleFirst hr hp hdue, fun hs hc ho hd => lineAct_transmit hr hp hdue hs hc ho hd,
        fun hs hc ho => lineAct_gap hr hdue hs hc ho⟩
    · rw [Actor.act_line (lineDue_of_span ho)]
      exact lineAct_span hr hp hclock ho

end Sys2Proof.Machine
end

section
/-! The Cycle Timer's boundaries, SYNC edges and settings, case by case, and what the other blocks leave alone of timer and banks. -/

namespace Sys2Proof.Machine

/-! ## The ends of cycles and ticks (R14, R21 to R23) -/

section Boundaries

variable {s : State}

theorem endCycle_running (h : s.timer.state = .running) (sync : SyncState) (own : Option EventKind) :
    endCycle sync own s = cycleBegin own (s.withTimer { s.timer with sync := sync }) := by
  simp only [endCycle, h]

theorem endCycle_ending (h : s.timer.state = .stopping ∨ s.timer.state = .single) (sync : SyncState) (own : Option EventKind) :
    endCycle sync own s = stopBoundary s := by
  rcases h with h | h <;> simp only [endCycle, h]

theorem ownBoundary_locked (h : s.timer.sync = .locked) : ownBoundary s = endCycle .holdover (some .syncLost) s := if_pos h

theorem ownBoundary_unlocked (h : s.timer.sync ≠ .locked) : ownBoundary s = endCycle s.timer.sync none s := if_neg h

theorem Timer.cycleRunning_iff (t : Timer) : t.cycleRunning = true ↔ t.state ≠ .stopped ∧ t.sync ≠ .seeking := by
  simp [Timer.cycleRunning]

theorem Timer.limit_locked {t : Timer} (h : t.sync = .locked) : t.limit = t.period.toNat + t.window.toNat := if_pos h

theorem Timer.limit_unlocked {t : Timer} (h : t.sync ≠ .locked) : t.limit = t.period.toNat := if_neg h

theorem Timer.atLimit_iff (t : Timer) : t.atLimit = true ↔ t.cycleRunning = true ∧ t.limit ≤ t.value.toNat + 1 := by
  simp [Timer.atLimit]

theorem completeTick_idle (h : s.timer.cycleRunning = false) : completeTick s = s := by simp [completeTick, h]

/-- Below its limit a tick advances the value and ends the SYNC pulse (R14, R17). -/
theorem completeTick_below (hrun : s.timer.cycleRunning = true) (h : s.timer.value.toNat + 1 < s.timer.limit) :
    completeTick s = s.withTimer { s.timer with value := s.timer.value + 1, subTick := 0, pulse := false } := by
  have hlimit : ¬ s.timer.atLimit = true := fun hl => by have := (s.timer.atLimit_iff.mp hl).2; omega
  rw [completeTick, if_pos hrun, if_neg hlimit]

/-- At its limit a tick is the timer's own boundary (R21, R27). -/
theorem completeTick_atLimit (h : s.timer.atLimit = true) : completeTick s = ownBoundary s := by
  rw [completeTick, if_pos (s.timer.atLimit_iff.mp h).1, if_pos h]

end Boundaries

/-! ## SYNC edges (R17, R25, R26, R28) -/

section Edges

variable {s : State}

/-- No edge: SYNC is no input, or no sample at 1 came before (R17). -/
theorem syncEdge_ignored (h : ¬ (s.timer.mode = .follow ∧ s.timer.prevSync = some true)) : syncEdge s = s := if_neg h

/-- An edge is remembered as a sample at 0 (R17). -/
def State.edgeSeen (s : State) : State := s.withTimer { s.timer with prevSync := some false }

/-- While the timer is STOPPED, or SYNC is not used, an edge is remembered and no more (R17). -/
theorem syncEdge_unused (hm : s.timer.mode = .follow) (hp : s.timer.prevSync = some true)
    (h : s.timer.state = .stopped ∨ s.timer.sync = .notUsed) : syncEdge s = s.edgeSeen := by
  unfold syncEdge
  rw [if_pos ⟨hm, hp⟩]
  by_cases hst : s.timer.state = .stopped
  · rw [if_pos hst]; rfl
  · rw [if_neg hst]
    split <;> next hs => rw [h.resolve_left hst] at hs; cases hs <;> rfl

/-- The first edge of a search (R25). -/
theorem syncEdge_seeking (hm : s.timer.mode = .follow) (hp : s.timer.prevSync = some true) (hst : s.timer.state ≠ .stopped)
    (hs : s.timer.sync = .seeking) :
    syncEdge s = cycleBegin none (s.withTimer { s.timer with sync := .locked, prevSync := some false }) := by
  unfold syncEdge
  rw [if_pos ⟨hm, hp⟩, if_neg hst]
  split <;> next h => rw [hs] at h; cases h <;> rfl

/-- An edge before the window is counted (R26). -/
theorem syncEdge_early (hm : s.timer.mode = .follow) (hp : s.timer.prevSync = some true) (hst : s.timer.state ≠ .stopped)
    (hs : s.timer.sync = .locked) (h : s.timer.value.toNat + s.timer.window.toNat < s.timer.period.toNat) :
    syncEdge s = s.withTimer { s.timer with prevSync := some false, early := satInc s.timer.early } := by
  have hout : ¬ s.timer.edgeAccepted = true := by rw [Timer.edgeAccepted, decide_eq_true_eq]; omega
  unfold syncEdge
  rw [if_pos ⟨hm, hp⟩, if_neg hst, if_neg hout]
  split <;> next h => rw [hs] at h; cases h <;> rfl

/-- An edge within the window ends the cycle (R26). -/
theorem syncEdge_accepted (hm : s.timer.mode = .follow) (hp : s.timer.prevSync = some true) (hst : s.timer.state ≠ .stopped)
    (hs : s.timer.sync = .locked) (h : s.timer.period.toNat ≤ s.timer.value.toNat + s.timer.window.toNat) :
    syncEdge s = endCycle .locked none s.edgeSeen := by
  have hin : s.timer.edgeAccepted = true := decide_eq_true h
  unfold syncEdge
  rw [if_pos ⟨hm, hp⟩, if_neg hst, if_pos hin]
  split <;> next h => rw [hs] at h; cases h <;> rfl

/-- Any edge in HOLDOVER regains sync (R28). -/
theorem syncEdge_holdover (hm : s.timer.mode = .follow) (hp : s.timer.prevSync = some true) (hst : s.timer.state ≠ .stopped)
    (hs : s.timer.sync = .holdover) : syncEdge s = endCycle .locked (some .syncRegained) s.edgeSeen := by
  unfold syncEdge
  rw [if_pos ⟨hm, hp⟩, if_neg hst]
  split <;> next h => rw [hs] at h; cases h <;> rfl

end Edges

/-! ## The tests of the timer's settings (R15, R16) -/

theorem Timer.settable_iff (t : Timer) : t.settable = true ↔ t.state = .stopped := by simp [Timer.settable]

theorem Timer.windowFits_iff (t : Timer) (v : Byte) : t.windowFits v = true ↔ v ≠ 0 ∧ t.period.toNat + v.toNat ≤ 65535 := by
  simp [Timer.windowFits]

theorem bankBelow_iff (b : Bank) (period : Half) : bankBelow b period = true ↔
    ∀ (l : Line) (i : Fin 32), i.val < (b.get l).count.toNat → (b.get l).entries[i].offset.toNat < period.toNat := by
  simp only [bankBelow, List.all_eq_true, List.mem_finRange, forall_true_left, Bool.and_eq_true, Bool.or_eq_true, decide_eq_true_eq]
  constructor
  · intro h l i hi
    cases l
    · exact (h i).1.resolve_left (Nat.not_le.mpr hi)
    · exact (h i).2.resolve_left (Nat.not_le.mpr hi)
  · intro h i
    exact ⟨or_iff_not_imp_left.mpr fun hn => h .a i (Nat.not_le.mp hn), or_iff_not_imp_left.mpr fun hn => h .b i (Nat.not_le.mp hn)⟩

/-- The conditions of a period write are those of R16. -/
theorem periodFits_iff (s : State) (candidate : Half) : periodFits s candidate = true ↔ PeriodTakes s candidate := by
  have hmax : candidate.toNat ≤ 65535 := by have := candidate.isLt; omega
  unfold periodFits PeriodTakes
  simp only [Bool.and_eq_true, Bool.or_eq_true, decide_eq_true_eq, bne_iff_ne, Timer.settable_iff, bankBelow_iff, and_assoc, hmax,
    true_and, or_iff_not_imp_left, not_not, ne_eq]

/-! ## The Schedule Store and the lines around a boundary

What the steps owed, the lines and the store leave alone: the timer, and the bank that the active-bank index names. -/

/-- The active-bank index and the active bank's contents are as they were (R32, R33). -/
structure ActiveBankKept (s t : Schedule) : Prop where
  active : t.active = s.active
  activeBank : t.activeBank = s.activeBank

theorem ActiveBankKept.refl (s : Schedule) : ActiveBankKept s s := ⟨rfl, rfl⟩

theorem ActiveBankKept.trans {s t u : Schedule} (h : ActiveBankKept s t) (k : ActiveBankKept t u) : ActiveBankKept s u :=
  ⟨k.active.trans h.active, k.activeBank.trans h.activeBank⟩

/-- The pending bank replaced (R33). -/
theorem Schedule.withPending_kept (s : Schedule) (b : Bank) : ActiveBankKept s (s.withPending b) := by
  unfold Schedule.withPending
  split
  · next h => exact ⟨rfl, by simp [Schedule.activeBank, h]⟩
  · next h => exact ⟨rfl, by simp [Schedule.activeBank, h]⟩

theorem Schedule.copyOn_kept (s : Schedule) (bytes : Nat) : ActiveBankKept s (s.copyOn bytes) := by
  unfold Schedule.copyOn
  split
  · exact .refl s
  · exact (s.withPending_kept _).trans ⟨rfl, rfl⟩

/-- The commands of the store write no bank (R40, R46, R47). -/
theorem Schedule.startCheck_kept {s t : Schedule} (h : s.startCheck = .ok t) : ActiveBankKept s t := by
  unfold Schedule.startCheck at h
  split at h
  · cases h
  · cases h; exact ⟨rfl, rfl⟩

theorem Schedule.abort_kept {s t : Schedule} (h : s.abort = .ok t) : ActiveBankKept s t := by
  unfold Schedule.abort at h
  split at h <;> cases h <;> exact ⟨rfl, rfl⟩

theorem Schedule.startCopy_kept {s t : Schedule} (h : s.startCopy = .ok t) : ActiveBankKept s t := by
  unfold Schedule.startCopy at h
  split at h
  · cases h
  · cases h; exact ⟨rfl, rfl⟩

/-- The timer is as it was, and so is the active bank. -/
structure TimerFrame (s t : State) : Prop where
  timer : t.timer = s.timer
  bank : ActiveBankKept s.schedule t.schedule

theorem TimerFrame.refl (s : State) : TimerFrame s s := ⟨rfl, .refl _⟩

theorem TimerFrame.trans {s t u : State} (h : TimerFrame s t) (k : TimerFrame t u) : TimerFrame s u :=
  ⟨k.timer.trans h.timer, h.bank.trans k.bank⟩

/-- A line has no hold on the timer or on a bank. -/
theorem LineFrame.timerFrame {l : Line} {s t : State} (h : LineFrame l s t) : TimerFrame s t :=
  ⟨h.timer, by rw [h.schedule]; exact ⟨rfl, rfl⟩⟩

theorem endCheck_timerFrame (s : State) : TimerFrame s (endCheck s) := by
  unfold endCheck
  split
  · split
    · exact ⟨rfl, rfl, rfl⟩
    · exact ⟨rfl, rfl, rfl⟩
  · exact .refl s

theorem endCopy_timerFrame (s : State) : TimerFrame s (endCopy s) := by
  unfold endCopy
  split
  · exact ⟨rfl, (s.schedule.withPending_kept _).trans ⟨rfl, rfl⟩⟩
  · exact .refl s

theorem copyProgress_timerFrame (s : State) : TimerFrame s (copyProgress s) := by
  unfold copyProgress
  split
  · exact ⟨rfl, s.schedule.copyOn_kept _⟩
  · exact .refl s

/-- A window read moves nothing but a running copy on (R33, R47). -/
theorem windowRead_timerFrame (w : WinTarget) (s : State) : TimerFrame s (windowRead w s).2 := by
  have record : ∀ id bytes k, TimerFrame s (readRecord id bytes k s).2 := by
    intro id bytes k
    by_cases hk : k = 0
    · subst hk; exact ⟨rfl, rfl, rfl⟩
    · rw [readRecord_later hk]; exact .refl s
  have claimed : ∀ m byte, TimerFrame s (readClaimed m byte s).2 := by
    intro m byte
    unfold readClaimed
    split <;> exact ⟨rfl, rfl, rfl⟩
  cases w with
  | pendingEntry | pendingCount => exact copyProgress_timerFrame s
  | result | station | mailboxPart | eventHeader => exact record ..
  | mailboxHeader | mailboxPayload => exact claimed ..
  | activeEntry | activeCount | staged | live | generation | marked | eventPayload | eventBufferHeader | staging | queueView
  | unmapped => exact ⟨rfl, rfl, rfl⟩

/-- A window write reaches no bank but the pending one (R33). -/
theorem windowWrite_timerFrame (w : WinTarget) (v : Byte) (s : State) : TimerFrame s (windowWrite w v s) := by
  have pending : ∀ f, TimerFrame s (writePending f s) := by
    intro f
    unfold writePending
    split
    · exact ⟨rfl, rfl, rfl⟩
    · exact ⟨rfl, s.schedule.withPending_kept _⟩
  cases w with
  | pendingEntry | pendingCount => rw [windowWrite]; exact pending _
  | _ => exact ⟨rfl, rfl, rfl⟩

/-! ## What a moment owes (log 8) -/

/-- The timer is as it was, and the store but for its results. -/
structure OwedFrame (s t : State) : Prop where
  timer : t.timer = s.timer
  schedule : t.schedule = { s.schedule with results := t.schedule.results }

theorem OwedFrame.refl (s : State) : OwedFrame s s := ⟨rfl, rfl⟩

theorem OwedFrame.trans {s t u : State} (h : OwedFrame s t) (k : OwedFrame t u) : OwedFrame s u :=
  ⟨k.timer.trans h.timer, by rw [k.schedule, h.schedule]⟩

theorem LineFrame.owedFrame {l : Line} {s t : State} (h : LineFrame l s t) : OwedFrame s t := ⟨h.timer, h.schedule⟩

theorem OwedFrame.timerFrame {s t : State} (h : OwedFrame s t) : TimerFrame s t :=
  ⟨h.timer, by rw [h.schedule]; exact ⟨rfl, rfl⟩⟩

theorem settleLine_lineFrame (l : Line) (s : State) : LineFrame l s (settleLine l s) :=
  (openSlotEnd_lineFrame l s).trans <| (slotBegin_lineFrame l _).trans <| (startAcyclic_lineFrame l _).trans <|
    (startAcyclic_lineFrame l _).trans <| (startAcyclic_lineFrame l _).trans <| startAcyclic_lineFrame l _

theorem settle_owedFrame (s : State) : OwedFrame s (settle s) := by
  have line (l : Line) (u : State) : OwedFrame u (settleLine l u) := (settleLine_lineFrame l u).owedFrame
  have drawn : OwedFrame s s.drawn := ⟨rfl, rfl⟩
  unfold settle
  dsimp only
  split
  · split
    · split
      · exact (drawn.trans (line .a _)).trans (line .b _)
      · exact (drawn.trans (line .b _)).trans (line .a _)
    · exact line .a s
  · split
    · exact line .b s
    · exact .refl s

theorem claimEdge_owedFrame (l : Line) (s t : State) : OwedFrame t (claimEdge l s t) := by
  rcases claimEdge_cases l s t with h | ⟨-, -, h⟩
  · rw [h]; exact .refl t
  · rw [h]; exact (setEngine_lineFrame l t _).owedFrame

theorem settleMoment_owedFrame (s : State) : OwedFrame s (settleMoment s) :=
  (settle_owedFrame s).trans <| (claimEdge_owedFrame .a s _).trans <| claimEdge_owedFrame .b s _

end Sys2Proof.Machine
end

section
/-! What a step can do to the cycle count, to the active bank and to a legal timer: nothing, a cycle begin, or a reset. -/

namespace Sys2Proof.Machine

/-! ## Legal timers at boundaries (section 2.2, section 2.6) -/

/-- The settings lie in their ranges (section 2.2). -/
def Timer.SettingsLegal (t : Timer) : Prop :=
  100 ≤ t.period.toNat ∧ 1 ≤ t.window.toNat ∧ t.period.toNat + t.window.toNat ≤ 65535

/-- A cycle may begin: in FREE mode out of STOPPED, in FOLLOW mode in RUNNING with sync gained or held over (section 2.6). -/
def Timer.MayBegin (t : Timer) : Prop :=
  t.SettingsLegal ∧ ((t.mode = .free ∧ t.sync = .notUsed ∧ t.state ≠ .stopped)
    ∨ (t.mode = .follow ∧ (t.sync = .locked ∨ t.sync = .holdover) ∧ t.state = .running))

theorem Timer.Legal.settings {t : Timer} (h : t.Legal) : t.SettingsLegal := ⟨h.1, h.2.1, h.2.2.1⟩

theorem Timer.period_le_limit (t : Timer) : t.period.toNat ≤ t.limit := by
  unfold Timer.limit; split <;> omega

theorem Timer.limit_le {t : Timer} (h : t.SettingsLegal) : t.limit ≤ 65535 := by
  obtain ⟨-, -, hsum⟩ := h
  unfold Timer.limit; split <;> omega

theorem Timer.zero_lt_limit {t : Timer} (h : t.SettingsLegal) : (0 : Half).toNat < t.limit := by
  have := t.period_le_limit
  obtain ⟨hperiod, -⟩ := h
  show 0 < t.limit
  omega

/-- A cycle begins with a legal timer (R22). -/
theorem Timer.MayBegin.begun_legal {t : Timer} (h : t.MayBegin) : t.begun.Legal := by
  obtain ⟨hset, hmode⟩ := h
  have ⟨hperiod, hwindow, hsum⟩ := hset
  refine ⟨hperiod, hwindow, hsum, Timer.zero_lt_limit (t := t.begun) hset, fun _ => rfl, ?_⟩
  rcases hmode with ⟨hm, hs, hst⟩ | ⟨hm, hs, hst⟩
  · simp [Timer.begun, Timer.syncIsOutput, hm, hs, hst]
  · rcases hs with hs | hs <;> simp [Timer.begun, Timer.syncIsOutput, hm, hs, hst]

/-- Cycles end with a legal timer (R23). -/
theorem Timer.Legal.stopped_legal {t : Timer} (h : t.Legal) : t.stopped.Legal := by
  have hset := h.settings
  obtain ⟨hperiod, hwindow, hsum, -, -, hfree, -⟩ := h
  refine ⟨hperiod, hwindow, hsum, Timer.zero_lt_limit (t := t.stopped) hset, fun _ => rfl, ?_⟩
  cases hm : t.mode with
  | free => simp [Timer.stopped, hm, hfree hm]
  | follow => simp [Timer.stopped, hm]

/-- In a running cycle a legal timer may begin the next, in FOLLOW mode with sync gained or held over. -/
theorem Timer.Legal.mayBegin {t : Timer} {sync : SyncState} (h : t.Legal) (hst : t.state = .running)
    (hfree : t.mode = .free → sync = .notUsed) (hfollow : t.mode = .follow → sync = .locked ∨ sync = .holdover) :
    Timer.MayBegin { t with sync := sync } := by
  refine ⟨h.settings, ?_⟩
  cases hm : t.mode with
  | free => exact .inl ⟨rfl, hfree hm, by simp [hst]⟩
  | follow => exact .inr ⟨rfl, hfollow hm, hst⟩

/-- Sync while a cycle runs in FOLLOW mode (section 2.6). -/
theorem Timer.Legal.sync_follow {t : Timer} (h : t.Legal) (hm : t.mode = .follow) (hrun : t.cycleRunning = true) :
    t.sync = .locked ∨ t.sync = .holdover := by
  obtain ⟨-, -, -, -, -, -, hfollow, -⟩ := h
  obtain ⟨hstate, hseek⟩ := t.cycleRunning_iff.mp hrun
  have hused : t.sync ≠ .notUsed := fun hn => hstate ((hfollow hm).mp hn)
  cases hs : t.sync <;> simp_all

/-- A timer that has not reached its limit stays legal at the next value (R14). -/
theorem Timer.Legal.next_value {t : Timer} (h : t.Legal) (hrun : t.cycleRunning = true) (hbelow : t.value.toNat + 1 < t.limit) :
    Timer.Legal { t with value := t.value + 1, subTick := 0, pulse := false } := by
  have hmax := Timer.limit_le h.settings
  obtain ⟨hperiod, hwindow, hsum, -, -, hfree, hfollow, hseek, hsingle, -⟩ := h
  refine ⟨hperiod, hwindow, hsum, ?_, fun hstop => ?_, hfree, hfollow, hseek, hsingle, nofun⟩
  · show (t.value + 1).toNat < t.limit
    rw [BitVec.toNat_add]
    exact lt_of_le_of_lt (Nat.mod_le ..) hbelow
  · exact absurd (hrun.symm.trans hstop) (by decide)

/-! ## The three ends of a step -/

/-- The cycle count stands, the active bank and its contents stand, and a legal timer stays legal. -/
structure CountKept (s t : State) : Prop where
  legal : s.timer.Legal → t.timer.Legal
  count : t.timer.cycleCount = s.timer.cycleCount
  bank : ActiveBankKept s.schedule t.schedule

/-- A cycle has begun: the count is one higher, and with a changeover armed the banks have changed places (R22, R44). -/
structure CycleBegins (s t : State) : Prop where
  legal : s.timer.Legal → t.timer.Legal
  count : t.timer.cycleCount = s.timer.cycleCount + 1
  value : t.timer.value = 0
  flag : t.timer.cycleFlag = true
  unmarked : ∀ n : Fin 64, t.images.marked[n] = false
  swapped : s.schedule.changeover = .armed → t.schedule.changeover = .none
    ∧ t.schedule.changeovers = s.schedule.changeovers + 1 ∧ t.schedule.active = !s.schedule.active
    ∧ t.schedule.activeBank = s.schedule.pendingBank
  unswapped : s.schedule.changeover ≠ .armed → ActiveBankKept s.schedule t.schedule

/-- The count stands or a cycle has begun. -/
def Moves (s t : State) : Prop := CountKept s t ∨ CycleBegins s t

theorem TimerFrame.countKept {s t : State} (h : TimerFrame s t) : CountKept s t :=
  ⟨fun hl => by rw [h.timer]; exact hl, by rw [h.timer], h.bank⟩

theorem TimerFrame.moves {s t : State} (h : TimerFrame s t) : Moves s t := .inl h.countKept

/-- A timer of the same count that is legal if it was. -/
theorem withTimer_countKept {s : State} {x : Timer} (hl : s.timer.Legal → x.Legal) (hc : x.cycleCount = s.timer.cycleCount) :
    CountKept s (s.withTimer x) := ⟨hl, hc, .refl _⟩

/-- What may come before a boundary in the same step: the count and all of the store but its results stand. -/
structure LeadsUp (s u : State) : Prop where
  legal : s.timer.Legal → u.timer.Legal
  count : u.timer.cycleCount = s.timer.cycleCount
  schedule : u.schedule = { s.schedule with results := u.schedule.results }

theorem OwedFrame.leadsUp {s u : State} (h : OwedFrame s u) : LeadsUp s u :=
  ⟨fun hl => by rw [h.timer]; exact hl, by rw [h.timer], h.schedule⟩

theorem LeadsUp.moves {s u t : State} (h : LeadsUp s u) (k : Moves u t) : Moves s t := by
  have hbank : ActiveBankKept s.schedule u.schedule := by rw [h.schedule]; exact ⟨rfl, rfl⟩
  have hstate : u.schedule.changeover = s.schedule.changeover := by rw [h.schedule]
  have hpending : u.schedule.pendingBank = s.schedule.pendingBank := by rw [h.schedule]; rfl
  have hcount : u.schedule.changeovers = s.schedule.changeovers := by rw [h.schedule]
  rcases k with k | k
  · exact .inl ⟨k.legal ∘ h.legal, k.count.trans h.count, hbank.trans k.bank⟩
  · refine .inr ⟨k.legal ∘ h.legal, by rw [k.count, h.count], k.value, k.flag, k.unmarked, fun ha => ?_, fun ha => ?_⟩
    · rw [← hcount, ← hpending, ← hbank.active]
      exact k.swapped (hstate.trans ha)
    · exact hbank.trans (k.unswapped (by rwa [hstate]))

/-- The Host Port has no part in it. -/
theorem Moves.withHosts {s t : State} {h : HostPort} (k : Moves (s.withHost h) t) (h' : HostPort) : Moves s (t.withHost h') :=
  k.imp (fun ⟨legal, count, bank⟩ => ⟨legal, count, bank⟩)
    fun ⟨legal, count, value, flag, unmarked, swapped, unswapped⟩ => ⟨legal, count, value, flag, unmarked, swapped, unswapped⟩

/-! ## Boundaries -/

theorem CycleBegun.begins {s t : State} {b : Timer} {own : List Event} (h : CycleBegun s b own t) (hb : s.timer.Legal → b.MayBegin) :
    CycleBegins s t := by
  obtain ⟨htimer, himages, hsch, -⟩ := h
  refine ⟨fun hl => ?_, by rw [htimer], by rw [htimer], by rw [htimer], fun n => (himages n).1, fun ha => ?_, fun ha => ?_⟩
  · have : t.timer = { b.begun with cycleCount := s.timer.cycleCount + 1 } := by
      rw [htimer]; simp [Timer.begun, Timer.syncIsOutput, beq_eq_decide]
    rw [this]
    exact (hb hl).begun_legal
  · rw [if_pos ha] at hsch
    rw [hsch]
    refine ⟨rfl, rfl, rfl, ?_⟩
    cases hact : s.schedule.active <;> simp [Schedule.activeBank, Schedule.pendingBank, hact]
  · rw [if_neg ha] at hsch
    rw [hsch]; exact ⟨rfl, rfl⟩

/-- The begin of a cycle from a state whose timer alone has been set. -/
theorem cycleBegin_moves {s : State} {b : Timer} (own : Option EventKind) (hc : b.cycleCount = s.timer.cycleCount)
    (hb : s.timer.Legal → b.MayBegin) : Moves s (cycleBegin own (s.withTimer b)) :=
  .inr ((cycleBegin_begun own s b hc).1.begins hb)

theorem stopBoundary_countKept (s : State) : CountKept s (stopBoundary s) := by
  obtain ⟨htimer, hsch, -⟩ : CyclesEnded s s.timer (stopBoundary s) := stopBoundary_ended s s.timer
  refine ⟨fun hl => ?_, by rw [htimer], ?_⟩
  · rw [htimer]; exact hl.stopped_legal
  · rw [hsch]; exact ⟨rfl, rfl⟩

/-- The end of a cycle (R21, R23, R26 to R28). -/
theorem endCycle_moves {s : State} {sync : SyncState} (own : Option EventKind)
    (hb : s.timer.Legal → s.timer.state = .running → Timer.MayBegin { s.timer with sync := sync }) : Moves s (endCycle sync own s) := by
  cases hs : s.timer.state with
  | running => rw [endCycle_running hs]; exact cycleBegin_moves own rfl fun hl => hb hl hs
  | stopping => rw [endCycle_ending (.inl hs)]; exact .inl (stopBoundary_countKept s)
  | single => rw [endCycle_ending (.inr hs)]; exact .inl (stopBoundary_countKept s)
  | stopped =>
    have : endCycle sync own s = s := by simp only [endCycle, hs]
    rw [this]; exact (TimerFrame.refl s).moves

/-! ## Timed events (R14, R17, R21, R25 to R28) -/

theorem ownBoundary_moves {s : State} (hrun : s.timer.cycleRunning = true) : Moves s (ownBoundary s) := by
  by_cases hlock : s.timer.sync = .locked
  · rw [ownBoundary_locked hlock]
    exact endCycle_moves _ fun hl hst => hl.mayBegin hst
      (fun hm => by
        obtain ⟨-, -, -, -, -, hfree, -⟩ := hl
        simp [hfree hm] at hlock)
      fun _ => .inr rfl
  · rw [ownBoundary_unlocked hlock]
    exact endCycle_moves _ fun hl hst => hl.mayBegin hst (by obtain ⟨-, -, -, -, -, hfree, -⟩ := hl; exact hfree)
      fun hm => hl.sync_follow hm hrun

theorem completeTick_moves (s : State) : Moves s (completeTick s) := by
  cases hrun : s.timer.cycleRunning with
  | false => rw [completeTick_idle hrun]; exact (TimerFrame.refl s).moves
  | true =>
    by_cases hlimit : s.timer.value.toNat + 1 < s.timer.limit
    · rw [completeTick_below hrun hlimit]
      exact .inl (withTimer_countKept (fun hl => hl.next_value hrun hlimit) rfl)
    · have hat := s.timer.atLimit_iff.mpr ⟨hrun, Nat.le_of_not_lt hlimit⟩
      rw [completeTick_atLimit hat]
      exact ownBoundary_moves hrun

/-- A falling edge on SYNC: remembered, counted as early, or the boundary that the sync state makes of it. -/
theorem syncEdge_moves (s : State) : Moves s (syncEdge s) := by
  have seen : LeadsUp s s.edgeSeen := ⟨id, rfl, rfl⟩
  by_cases hedge : s.timer.mode = .follow ∧ s.timer.prevSync = some true
  · obtain ⟨hm, hp⟩ := hedge
    have gained (hl : s.timer.Legal) (hrunning : s.timer.state = .running) :
        Timer.MayBegin { s.timer with sync := .locked, prevSync := some false } :=
      Timer.Legal.mayBegin (t := s.edgeSeen.timer) hl hrunning (fun hf => absurd (hm.symm.trans hf) (by decide)) fun _ => .inl rfl
    by_cases hst : s.timer.state = .stopped
    · rw [syncEdge_unused hm hp (.inl hst)]; exact seen.moves (TimerFrame.refl _).moves
    · cases hs : s.timer.sync with
      | notUsed => rw [syncEdge_unused hm hp (.inr hs)]; exact seen.moves (TimerFrame.refl _).moves
      | seeking =>
        rw [syncEdge_seeking hm hp hst hs]
        refine cycleBegin_moves none rfl fun hl => gained hl ?_
        obtain ⟨-, -, -, -, -, -, -, hseek, -⟩ := hl
        exact hseek hs
      | locked =>
        rcases Nat.lt_or_ge (s.timer.value.toNat + s.timer.window.toNat) s.timer.period.toNat with h | h
        · rw [syncEdge_early hm hp hst hs h]; exact .inl (withTimer_countKept id rfl)
        · rw [syncEdge_accepted hm hp hst hs h]; exact seen.moves (endCycle_moves none gained)
      | holdover => rw [syncEdge_holdover hm hp hst hs]; exact seen.moves (endCycle_moves _ gained)
  · rw [syncEdge_ignored hedge]; exact (TimerFrame.refl s).moves

/-! ## The timer's commands and settings (R15, R16, R18 to R20) -/

namespace Timer.Legal

variable {t : Timer}

/-- CYCLE_START in FOLLOW mode begins to seek (R18, R25). -/
theorem seeking (h : t.Legal) (hst : t.state = .stopped) (hm : t.mode = .follow) :
    Timer.Legal { t with state := .running, sync := .seeking, early := 0, value := 0, prevSync := none } := by
  have hset := h.settings
  obtain ⟨hperiod, hwindow, hsum, -, -, -, -, -, -, hpulse⟩ := h
  refine ⟨hperiod, hwindow, hsum, zero_lt_limit hset, fun _ => rfl, ?_, ?_, fun _ => rfl, nofun, fun hp => ?_⟩
  · simp [hm]
  · simp
  · exact absurd hst (hpulse hp).2.2.2

/-- CYCLE_START in STOPPING goes on (R18). -/
theorem resumed (h : t.Legal) (hst : t.state = .stopping) : Timer.Legal { t with state := .running } := by
  obtain ⟨hperiod, hwindow, hsum, hlimit, hidle, hfree, hfollow, -, -, hpulse⟩ := h
  refine ⟨hperiod, hwindow, hsum, hlimit, fun hrun => hidle ?_, hfree, ?_, fun _ => rfl, nofun, ?_⟩
  · simpa [cycleRunning, hst] using hrun
  · simpa [hst] using hfollow
  · simpa [hst] using hpulse

/-- CYCLE_STOP while seeking stops at once (R19). -/
theorem unsought (h : t.Legal) (hs : t.sync = .seeking) :
    Timer.Legal { t with state := .stopped, sync := .notUsed } := by
  have hset := h.settings
  obtain ⟨hperiod, hwindow, hsum, -, hidle, hfree, -, -, -, hpulse⟩ := h
  have hvalue : t.value = 0 := hidle (by simp [cycleRunning, hs])
  refine ⟨hperiod, hwindow, hsum, ?_, fun _ => hvalue, fun _ => rfl, fun _ => ⟨fun _ => rfl, fun _ => rfl⟩, nofun, nofun,
    fun hp => ?_⟩
  · show t.value.toNat < _
    rw [hvalue]; exact zero_lt_limit hset
  · have := hfree (hpulse hp).1
    simp [hs] at this

/-- CYCLE_STOP in a cycle waits for its end (R19). -/
theorem stopping (h : t.Legal) (hst : t.state = .running ∨ t.state = .single) (hs : t.sync ≠ .seeking) :
    Timer.Legal { t with state := .stopping } := by
  obtain ⟨hperiod, hwindow, hsum, hlimit, hidle, hfree, hfollow, -, -, hpulse⟩ := h
  have hstate : t.state ≠ .stopped := by rcases hst with h | h <;> simp [h]
  refine ⟨hperiod, hwindow, hsum, hlimit, fun hrun => hidle ?_, hfree, ?_, fun hk => absurd hk hs, nofun, ?_⟩
  · simpa [cycleRunning, hstate] using hrun
  · simpa [hstate] using hfollow
  · simpa [hstate] using hpulse

/-- While STOPPED the timer stands at 0 and drives no pulse, with SYNC not used in either mode (section 2.6). -/
theorem at_rest (h : t.Legal) (hst : t.state = .stopped) : t.value = 0 ∧ t.sync = .notUsed ∧ t.pulse = false := by
  obtain ⟨-, -, -, -, hidle, hfree, hfollow, -, -, hpulse⟩ := h
  refine ⟨hidle (by simp [cycleRunning, hst]), ?_, by simpa [hst] using hpulse⟩
  cases hm : t.mode with
  | free => exact hfree hm
  | follow => exact (hfollow hm).mpr hst

/-- A timer at rest is legal with any settings in their ranges (R15, R16). -/
theorem of_rest (hset : t.SettingsLegal) (hst : t.state = .stopped) (h : t.value = 0 ∧ t.sync = .notUsed ∧ t.pulse = false) :
    t.Legal := by
  obtain ⟨hperiod, hwindow, hsum⟩ := hset
  obtain ⟨hvalue, hsync, hpulse⟩ := h
  refine ⟨hperiod, hwindow, hsum, ?_, fun _ => hvalue, fun _ => hsync, fun _ => by simp [hsync, hst], by simp [hsync], by simp [hst],
    by simp [hpulse]⟩
  rw [hvalue]; exact zero_lt_limit ⟨hperiod, hwindow, hsum⟩

/-- The settings of a timer at rest may change within their ranges (R15, R16). -/
theorem set_at_rest {x : Timer} (h : t.Legal) (hst : t.state = .stopped) (hset : x.SettingsLegal)
    (hx : x.state = t.state ∧ x.value = t.value ∧ x.sync = t.sync ∧ x.pulse = t.pulse) : x.Legal := by
  obtain ⟨hxst, hvalue, hsync, hpulse⟩ := hx
  exact of_rest hset (hxst.trans hst) (by rw [hvalue, hsync, hpulse]; exact h.at_rest hst)

end Timer.Legal

theorem startCycles_moves {s t : State} (h : startCycles s = .ok t) : Moves s t := by
  unfold startCycles at h
  split at h <;> cases h
  · next hst hm =>
    refine cycleBegin_moves none rfl fun hl => ⟨hl.settings, .inl ⟨hm, (hl.at_rest hst).2.1, by simp⟩⟩
  · next hst hm => exact .inl (withTimer_countKept (fun hl => hl.seeking hst hm) rfl)
  · next hst => exact .inl (withTimer_countKept (fun hl => hl.resumed hst) rfl)

theorem stopCycles_moves {s t : State} (h : stopCycles s = .ok t) : Moves s t := by
  unfold stopCycles at h
  split at h
  · next hst =>
    split at h <;> cases h
    · next hs => exact .inl (withTimer_countKept (fun hl => hl.unsought hs) rfl)
    · next hs => exact .inl (withTimer_countKept (fun hl => hl.stopping (.inl hst) hs) rfl)
  · next hst =>
    cases h
    refine .inl (withTimer_countKept (fun hl => hl.stopping (.inr hst) ?_) rfl)
    obtain ⟨-, -, -, -, -, -, -, hseek, -⟩ := hl
    intro hs; simp [hseek hs] at hst
  · cases h; exact (TimerFrame.refl _).moves
  · cases h

theorem singleCycle_moves {s t : State} (h : singleCycle s = .ok t) : Moves s t := by
  unfold singleCycle at h
  split at h <;> cases h
  next hst =>
  exact cycleBegin_moves none rfl fun hl => ⟨hl.settings, .inl ⟨hst.2, (hl.at_rest hst.1).2.1, by simp⟩⟩

/-- A write of a setting: taken in STOPPED within range, or ignored (R15). -/
theorem settingWrite_moves {s : State} {taken : Bool} {f : Timer → Timer} (hc : (f s.timer).cycleCount = s.timer.cycleCount)
    (hx : (f s.timer).state = s.timer.state ∧ (f s.timer).value = s.timer.value ∧ (f s.timer).sync = s.timer.sync
      ∧ (f s.timer).pulse = s.timer.pulse)
    (htaken : taken = true → s.timer.state = .stopped ∧ (s.timer.SettingsLegal → (f s.timer).SettingsLegal)) :
    Moves s (settingWrite taken f s) := by
  unfold settingWrite
  split
  · next ht =>
    obtain ⟨hst, hset⟩ := htaken ht
    exact .inl (withTimer_countKept (fun hl => hl.set_at_rest hst (hset hl.settings) hx) hc)
  · exact .inl ⟨id, rfl, .refl _⟩

end Sys2Proof.Machine
end

section
/-! The codes of commands, the offsets of writes, and the rows that they spell (section 11.1, section 11.10). -/

namespace Sys2Proof

/-! ## Codes -/

/-- The codes of section 11.10 are those of the decoder. -/
theorem commandOfCode_iff (code : Byte) (c : Instr) : commandOfCode code = some c ↔ (code, c) ∈ commandCodes := by
  constructor
  · intro h
    unfold commandOfCode at h
    split at h <;> cases h <;> next hcode =>
      rw [(BitVec.toNat_eq_nat.mp hcode).2]
      decide
  · have rows : ∀ p ∈ commandCodes, commandOfCode p.1 = some p.2 := by decide
    exact rows (code, c)

/-! ## Offsets -/

/-- The rows of a line's block, by their offsets in it (section 11.1). -/
def blockRows (l : Line) (v : Byte) : List (Nat × Instr) :=
  [(0x0, .divisorLowWrite l v), (0x1, .divisorHighWrite l v), (0x2, .lineSettingWrite l .frameGap v),
   (0x3, .lineSettingWrite l .charGap v), (0x4, .lineSettingWrite l .failThreshold v),
   (0x5, .lineSettingWrite l .probeInterval v), (0x6, .lineSettingWrite l .lineFlags v),
   (0x7, .lineSettingWrite l .eventMask v), (0xA, .overrunCounterWrite l v), (0xB, .strayCounterWrite l v)]

theorem lineBlockWrite_mem {l : Line} {off : Nat} {v : Byte} {c : Instr} (h : lineBlockWrite l off v = some c) :
    (off, c) ∈ blockRows l v := by
  unfold lineBlockWrite lineSettingAt at h
  split at h
  iterate 4 cases h; simp [blockRows]
  split at h <;> cases h <;> simp [blockRows]

/-- A line's block begins at 0x20 or at 0x30 (section 11.1). -/
theorem rowsOfWrites_block {off : Nat} {v : Byte} {c : Instr} (l : Line) (h : (off, c) ∈ blockRows l v) :
    ((if l = .a then 0x20 else 0x30 : BitVec 6) + BitVec.ofNat 6 off, c) ∈ rowsOfWrites v := by
  refine List.mem_append_right _ (List.mem_flatMap.mpr ⟨(if l = .a then 0x20 else 0x30, l), by cases l <;> simp, ?_⟩)
  simp only [blockRows, List.mem_cons, Prod.mk.injEq, List.not_mem_nil, or_false] at h ⊢
  rcases h with h | h | h | h | h | h | h | h | h | h <;> obtain ⟨rfl, rfl⟩ := h <;> simp

/-- The offsets of section 11.1 whose write is a row of its own are those of the decoder. -/
theorem ownRowOfWrite_iff (offset : BitVec 6) (v : Byte) (c : Instr) :
    ownRowOfWrite offset v = some c ↔ (offset, c) ∈ rowsOfWrites v := by
  constructor
  · intro h
    unfold ownRowOfWrite at h
    split at h
    iterate 12 next hoff => cases h; rw [(BitVec.toNat_eq_nat.mp hoff).2]; simp [rowsOfWrites]
    split at h
    · next hblock =>
      have := rowsOfWrites_block .a (lineBlockWrite_mem h)
      rwa [show offset = 0x20 + BitVec.ofNat 6 (offset.toNat - 0x20) by bv_omega]
    · split at h
      · next hblock =>
        have := rowsOfWrites_block .b (lineBlockWrite_mem h)
        rwa [show offset = 0x30 + BitVec.ofNat 6 (offset.toNat - 0x30) by bv_omega]
      · cases h
  · have rows : (rowsOfWrites v).Forall fun p => ownRowOfWrite p.1 v = some p.2 := by
      refine ⟨rfl, ?_⟩
      and_intros <;> rfl
    exact List.forall_iff_forall_mem.mp rows (offset, c)

end Sys2Proof

namespace Sys2Proof.Machine

/-! ## The rows that codes and offsets spell (log 16) -/

/-- A code that names a command gives that command. -/
theorem writeRow_ofCode {code : Byte} {c : Instr} (s : State) (h : commandOfCode code = some c) : writeRow c s = exec c s := by
  unfold commandOfCode at h
  split at h <;> cases h <;> rfl

/-- A write at an offset with a row of its own is that row's. -/
theorem writeRow_ofOffset {offset : BitVec 6} {v : Byte} {c : Instr} (s : State) (h : ownRowOfWrite offset v = some c) :
    writeRow c s = exec c s := by
  have code : writeRow ((commandOfCode v).getD (.badCommand v)) s = exec ((commandOfCode v).getD (.badCommand v)) s := by
    cases hv : commandOfCode v with
    | none => rw [Option.getD_none, exec, execBadCommand, hv]; rfl
    | some c => exact writeRow_ofCode s hv
  have rows : (rowsOfWrites v).Forall fun p => writeRow p.2 s = exec p.2 s := by
    refine ⟨rfl, rfl, rfl, code, ?_⟩
    and_intros <;> rfl
  exact List.forall_iff_forall_mem.mp rows _ ((ownRowOfWrite_iff offset v c).mp h)

theorem exec_badCommand {code : Byte} {c : Instr} (s : State) (h : commandOfCode code = some c) :
    exec (.badCommand code) s = exec c s := by
  rw [exec, execBadCommand, h]; exact writeRow_ofCode s h

theorem exec_registerWrite {offset : BitVec 6} {v : Byte} {c : Instr} (s : State) (h : ownRowOfWrite offset v = some c) :
    exec (.registerWrite offset v) s = exec c s := by
  rw [exec, execRegisterWrite, h]; exact writeRow_ofOffset s h

end Sys2Proof.Machine
end

section
/-! Every row, and every step, keeps the cycle count and the active bank, begins a cycle or is a reset; the timer stays legal. -/

namespace Sys2Proof.Machine

/-! ## Accesses and commands of the other blocks -/

theorem access_moves {s : State} {f : State → State} (h : ∀ u, Moves u (f u)) : Moves s (s.access f) := by
  unfold State.access
  split
  · exact (TimerFrame.refl s).moves
  · exact (h _).withHosts (s := s) (f _).host

theorem event_moves {s : State} {f : State → State} (h : ∀ u, Moves u (f u)) : Moves s (s.event f) := by
  unfold State.event
  split
  · exact (TimerFrame.refl s).moves
  · exact h s

theorem commandAccess_moves {s : State} {command : State → Except CmdStatus State} (code : Byte)
    (h : ∀ u t, command u = .ok t → Moves u t) : Moves s (commandAccess code command s) := by
  refine access_moves fun u => ?_
  unfold State.give
  split
  · next t ht => exact (h u t ht).withHosts (s := u) (h := u.host) _
  · exact .inl ⟨id, rfl, .refl _⟩

/-- A command that leaves the timer and the active bank alone. -/
def TimerFree (command : State → Except CmdStatus State) : Prop := ∀ s t, command s = .ok t → TimerFrame s t

theorem TimerFree.moves {s : State} {command : State → Except CmdStatus State} (code : Byte) (h : TimerFree command) :
    Moves s (commandAccess code command s) := commandAccess_moves code fun u t ht => (h u t ht).moves

theorem scheduleCommand_timerFree {f : Schedule → Except CmdStatus Schedule} (h : ∀ x y, f x = .ok y → ActiveBankKept x y) :
    TimerFree (scheduleCommand f) := by
  intro s t ht
  unfold scheduleCommand at ht
  split at ht <;> cases ht
  next y hy => exact ⟨rfl, h _ _ hy⟩

theorem stationCommand_timerFree (f : Station → Except CmdStatus Station) : TimerFree (stationCommand f) := by
  intro s t ht
  unfold stationCommand at ht
  split at ht
  · split at ht <;> cases ht
    exact (setStation_lineFrame _ s _ _).timerFrame
  · cases ht

theorem imageCommand_timerFree (f : Fin 64 → ImageStore → ImageStore) : TimerFree (imageCommand f) := by
  intro s t ht
  unfold imageCommand at ht
  split at ht <;> cases ht
  exact ⟨rfl, .refl _⟩

theorem mailboxCommand_timerFree {f : Fin 48 → Mailbox → State → Except CmdStatus State} (h : ∀ i m, TimerFree (f i m)) :
    TimerFree (mailboxCommand f) := by
  intro s t ht
  unfold mailboxCommand at ht
  split at ht
  · exact h _ _ s t ht
  · cases ht

theorem claimMailbox_timerFree (i : Fin 48) (m : Mailbox) : TimerFree (claimMailbox i m) := by
  intro s t ht
  unfold claimMailbox at ht
  split at ht <;> cases ht
  exact ⟨rfl, .refl _⟩

theorem releaseMailbox_timerFree (i : Fin 48) (m : Mailbox) : TimerFree (releaseMailbox i m) := by
  intro s t ht
  unfold releaseMailbox at ht
  split at ht <;> cases ht <;> exact ⟨rfl, .refl _⟩

theorem flushMailbox_timerFree (i : Fin 48) (m : Mailbox) : TimerFree (flushMailbox i m) := by
  intro s t ht
  cases ht; exact ⟨rfl, .refl _⟩

theorem lineCommand_timerFree {f : Line → State → Except CmdStatus State} (h : ∀ l s t, f l s = .ok t → LineFrame l s t) :
    TimerFree (lineCommand f) := by
  intro s t ht
  unfold lineCommand at ht
  split at ht
  · exact (h _ s t ht).timerFrame
  · cases ht

theorem enableLine_lineFrame (l : Line) (s t : State) (h : enableLine l s = .ok t) : LineFrame l s t := by
  unfold enableLine at h
  split at h <;> cases h
  exact setEngine_lineFrame l s _

theorem disableLine_lineFrame (l : Line) (s t : State) (h : disableLine l s = .ok t) : LineFrame l s t := by
  unfold disableLine at h
  dsimp only at h
  split at h
  · cases h
  · split at h
    · cases h; exact .refl l s
    · split at h <;> cases h <;> exact (tearDown_lineFrame l s).trans (setEngine_lineFrame l _ _)

theorem postRequest_timerFree : TimerFree postRequest := by
  intro s t ht
  unfold postRequest at ht
  split at ht
  · cases ht
  · dsimp only at ht
    split at ht
    · cases ht
    · split at ht <;> cases ht
      exact (setAcyclic_lineFrame _ s _).timerFrame

theorem cancelRequest_timerFree : TimerFree cancelRequest := by
  intro s t ht
  unfold cancelRequest at ht
  split at ht
  · cases ht
  · dsimp only at ht
    split at ht
    · cases ht; exact (setAcyclic_lineFrame _ s _).timerFrame
    · split at ht <;> cases ht

theorem popEvent_timerFree : TimerFree popEvent := by
  intro s t ht
  unfold popEvent at ht
  split at ht <;> cases ht
  exact ⟨rfl, .refl _⟩

/-! ## Every row -/

/-- What a row of the table does to the count, the active bank and the timer. -/
def RowMoves (c : Instr) (s : State) : Prop :=
  ∃ t, exec c s = .next t ∧ (Moves s t ∨ (isReset c ∧ t.timer = Timer.reset))

theorem rowMoves_of_moves {c : Instr} {s t : State} (h : exec c s = .next t) (k : Moves s t) : RowMoves c s := ⟨t, h, .inl k⟩

/-- An event of a line's engine. -/
theorem rowMoves_of_line {c : Instr} {s : State} {l : Line} {f : State → State} (h : exec c s = .next (s.event f))
    (k : ∀ u, LineFrame l u (f u)) : RowMoves c s := rowMoves_of_moves h (event_moves fun u => (k u).timerFrame.moves)

/-- A write of a line's register. -/
theorem rowMoves_of_lineAccess {c : Instr} {s : State} {l : Line} {f : State → State} (h : exec c s = .next (s.access f))
    (k : ∀ u, LineFrame l u (f u) ∨ f u = u.flagSetLocked) : RowMoves c s :=
  rowMoves_of_moves h <| access_moves fun u => by
    rcases k u with hl | hf
    · exact hl.timerFrame.moves
    · rw [hf]; exact TimerFrame.moves ⟨rfl, .refl _⟩

/-- An access that leaves the timer and the active bank alone. -/
theorem rowMoves_of_access {c : Instr} {s : State} {f : State → State} (h : exec c s = .next (s.access f))
    (k : ∀ u, TimerFrame u (f u)) : RowMoves c s := rowMoves_of_moves h (access_moves fun u => (k u).moves)

/-- A command of the host. -/
theorem rowMoves_of_command {c : Instr} {s : State} {code : Byte} {command : State → Except CmdStatus State}
    (h : exec c s = .next (commandAccess code command s)) (k : TimerFree command) : RowMoves c s := rowMoves_of_moves h (k.moves code)

theorem tick_moves (s : State) : RowMoves .tick s :=
  rowMoves_of_moves rfl <| event_moves fun u => by
    split
    · exact (settle_owedFrame u).leadsUp.moves (completeTick_moves _)
    · exact (TimerFrame.refl u).moves

/-- The steps owed, then the timer's own boundary at its limit. -/
theorem settled_ownBoundary_moves {s : State} (h : s.timer.atLimit = true) : Moves s (ownBoundary (settle s)) := by
  refine (settle_owedFrame s).leadsUp.moves (ownBoundary_moves ?_)
  rw [(settle_owedFrame s).timer]
  exact (s.timer.atLimit_iff.mp h).1

theorem periodEnd_moves (s : State) : RowMoves .periodEnd s :=
  rowMoves_of_moves rfl <| event_moves fun u => by
    split
    · next h => exact settled_ownBoundary_moves h.2
    · exact (TimerFrame.refl u).moves

theorem syncWindowExpiry_moves (s : State) : RowMoves .syncWindowExpiry s :=
  rowMoves_of_moves rfl <| event_moves fun u => by
    split
    · next h => exact settled_ownBoundary_moves h.2
    · exact (TimerFrame.refl u).moves

theorem syncHigh_moves (s : State) : Moves s (syncHigh s) := by
  unfold syncHigh
  split
  · exact .inl (withTimer_countKept id rfl)
  · exact (TimerFrame.refl s).moves

theorem irqStatusWrite_moves (v : Byte) (s : State) : RowMoves (.irqStatusWrite v) s :=
  rowMoves_of_moves rfl <| access_moves fun u => by
    split
    · exact .inl (withTimer_countKept id rfl)
    · exact (TimerFrame.refl u).moves

/-- The writes of the timer's settings (R15, R16). -/
theorem cytModeWrite_moves (v : Byte) (s : State) : RowMoves (.cytModeWrite v) s :=
  rowMoves_of_moves rfl <| access_moves fun _ =>
    settingWrite_moves rfl ⟨rfl, rfl, rfl, rfl⟩ fun h => ⟨(Timer.settable_iff _).mp h, id⟩

theorem cytPrescaleWrite_moves (v : Byte) (s : State) : RowMoves (.cytPrescaleWrite v) s :=
  rowMoves_of_moves rfl <| access_moves fun _ =>
    settingWrite_moves rfl ⟨rfl, rfl, rfl, rfl⟩ fun h => ⟨(Timer.settable_iff _).mp h, id⟩

theorem cytWindowWrite_moves (v : Byte) (s : State) : RowMoves (.cytWindowWrite v) s :=
  rowMoves_of_moves rfl <| access_moves fun u => settingWrite_moves rfl ⟨rfl, rfl, rfl, rfl⟩ fun h => by
    rw [Bool.and_eq_true, Timer.settable_iff, Timer.windowFits_iff] at h
    obtain ⟨hst, hne, hsum⟩ := h
    refine ⟨hst, fun ⟨hperiod, _, _⟩ => ⟨hperiod, ?_, hsum⟩⟩
    show 1 ≤ v.toNat
    bv_omega

theorem cytPeriodHighWrite_moves (v : Byte) (s : State) : RowMoves (.cytPeriodHighWrite v) s :=
  rowMoves_of_moves rfl <| access_moves fun u => settingWrite_moves rfl ⟨rfl, rfl, rfl, rfl⟩ fun h => by
    obtain ⟨hst, ⟨hperiod, -⟩, hsum, -⟩ := (periodFits_iff ..).mp h
    exact ⟨hst, fun ⟨_, hwindow, _⟩ => ⟨hperiod, hwindow, hsum⟩⟩

/-- The resets (R165, R166). -/
theorem softReset_moves (s : State) : RowMoves .softReset s := by
  refine ⟨_, rfl, ?_⟩
  cases hr : s.inReset with
  | true => rw [commandAccess_held hr]; exact .inl (TimerFrame.refl s).moves
  | false => rw [commandAccess_ok (command := Machine.softReset) hr rfl]; exact .inr ⟨.inr (.inr (.inl rfl)), rfl⟩

theorem plainWrite_timerFrame (offset : BitVec 6) (v : Byte) (s : State) : TimerFrame s (plainWrite offset v s) := by
  unfold plainWrite
  split <;> exact ⟨rfl, .refl _⟩

theorem readAtPointer_timerFrame (s : State) : TimerFrame s (readAtPointer s) :=
  (windowRead_timerFrame _ s).trans ⟨rfl, .refl _⟩

/-- A row that is the access its own name describes. -/
theorem rowMoves_wellFormed (c : Instr) (s : State) (h : c.wellFormed = true) : RowMoves c s := by
  cases c with
  | cycleStart => exact rowMoves_of_moves rfl (commandAccess_moves _ fun _ _ => startCycles_moves)
  | cycleStop => exact rowMoves_of_moves rfl (commandAccess_moves _ fun _ _ => stopCycles_moves)
  | cycleSingle => exact rowMoves_of_moves rfl (commandAccess_moves _ fun _ _ => singleCycle_moves)
  | changeover => exact rowMoves_of_command rfl (scheduleCommand_timerFree fun _ _ => Schedule.startCheck_kept)
  | abortChangeover => exact rowMoves_of_command rfl (scheduleCommand_timerFree fun _ _ => Schedule.abort_kept)
  | copyActive => exact rowMoves_of_command rfl (scheduleCommand_timerFree fun _ _ => Schedule.startCopy_kept)
  | lineEnable => exact rowMoves_of_command rfl (lineCommand_timerFree enableLine_lineFrame)
  | lineDisable => exact rowMoves_of_command rfl (lineCommand_timerFree disableLine_lineFrame)
  | park => exact rowMoves_of_command rfl (stationCommand_timerFree _)
  | unpark => exact rowMoves_of_command rfl (stationCommand_timerFree _)
  | clearCounters => exact rowMoves_of_command rfl (stationCommand_timerFree _)
  | publishImage => exact rowMoves_of_command rfl (imageCommand_timerFree _)
  | markImage => exact rowMoves_of_command rfl (imageCommand_timerFree _)
  | unmarkAll => exact rowMoves_of_command rfl fun _ _ ht => by cases ht; exact ⟨rfl, .refl _⟩
  | claim => exact rowMoves_of_command rfl (mailboxCommand_timerFree claimMailbox_timerFree)
  | release => exact rowMoves_of_command rfl (mailboxCommand_timerFree releaseMailbox_timerFree)
  | flush => exact rowMoves_of_command rfl (mailboxCommand_timerFree flushMailbox_timerFree)
  | post => exact rowMoves_of_command rfl postRequest_timerFree
  | cancel => exact rowMoves_of_command rfl cancelRequest_timerFree
  | pop => exact rowMoves_of_command rfl popEvent_timerFree
  | softReset => exact softReset_moves s
  | badCommand code =>
    have hcode : commandOfCode code = none := by simpa [Instr.wellFormed] using h
    have run : exec (.badCommand code) s = badCode code s := by rw [exec, execBadCommand, hcode]
    exact rowMoves_of_command (run.trans rfl) fun _ _ ht => by cases ht
  | cytModeWrite v => exact cytModeWrite_moves v s
  | cytPrescaleWrite v => exact cytPrescaleWrite_moves v s
  | cytWindowWrite v => exact cytWindowWrite_moves v s
  | cytPeriodLowWrite => exact rowMoves_of_moves rfl (access_moves fun _ => .inl (withTimer_countKept id rfl))
  | cytPeriodHighWrite v => exact cytPeriodHighWrite_moves v s
  | divisorLowWrite l => exact rowMoves_of_lineAccess rfl fun u => .inl (setEngine_lineFrame l u _)
  | divisorHighWrite l =>
    exact rowMoves_of_lineAccess rfl fun u => by
      dsimp only; split
      · exact .inl (setEngine_lineFrame l u _)
      · exact .inr rfl
  | lineSettingWrite l =>
    exact rowMoves_of_lineAccess rfl fun u => by
      split
      · exact .inl (setEngine_lineFrame l u _)
      · exact .inr rfl
  | cytValueLowRead => exact rowMoves_of_moves rfl (access_moves fun _ => .inl ⟨id, rfl, .refl _⟩)
  | cycleCountLowRead => exact rowMoves_of_moves rfl (access_moves fun _ => .inl ⟨id, rfl, .refl _⟩)
  | schChangeoversLowRead => exact rowMoves_of_access rfl fun _ => ⟨rfl, rfl, rfl⟩
  | overrunCounterWrite l => exact rowMoves_of_lineAccess rfl fun u => .inl (setEngine_lineFrame l u _)
  | strayCounterWrite l => exact rowMoves_of_lineAccess rfl fun u => .inl (setEngine_lineFrame l u _)
  | poolMissesWrite => exact rowMoves_of_access rfl fun _ => ⟨rfl, .refl _⟩
  | hostStatusWrite => exact rowMoves_of_access rfl fun _ => ⟨rfl, .refl _⟩
  | irqStatusWrite v => exact irqStatusWrite_moves v s
  | irqEnableWrite => exact rowMoves_of_access rfl fun _ => ⟨rfl, .refl _⟩
  | winDataRead => exact rowMoves_of_access rfl fun u => (readAtPointer_timerFrame u).trans ⟨rfl, .refl _⟩
  | winDataWrite v => exact rowMoves_of_access rfl fun u => (windowWrite_timerFrame _ v u).trans ⟨rfl, .refl _⟩
  | winPeekRead => exact rowMoves_of_access rfl readAtPointer_timerFrame
  | winPeekWrite v => exact rowMoves_of_access rfl fun u => windowWrite_timerFrame _ v u
  | registerWrite offset v =>
    have hrow : ownRowOfWrite offset v = none := by simpa [Instr.wellFormed] using h
    have run : exec (.registerWrite offset v) s = .next (s.access (plainWrite offset v)) := by rw [exec, execRegisterWrite, hrow]
    exact rowMoves_of_access run (plainWrite_timerFrame offset v)
  | pinReset => exact ⟨_, rfl, .inr ⟨.inl rfl, rfl⟩⟩
  | resetRelease => exact rowMoves_of_moves rfl (TimerFrame.moves ⟨rfl, .refl _⟩)
  | powerUp => exact ⟨_, rfl, .inr ⟨.inr (.inl rfl), rfl⟩⟩
  | tick => exact tick_moves s
  | periodEnd => exact periodEnd_moves s
  | syncWindowExpiry => exact syncWindowExpiry_moves s
  | syncFallingEdge => exact rowMoves_of_moves rfl (event_moves syncEdge_moves)
  | changeoverCheckEnd => exact rowMoves_of_moves rfl (event_moves fun u => (endCheck_timerFrame u).moves)
  | copyComplete => exact rowMoves_of_moves rfl (event_moves fun u => (endCopy_timerFrame u).moves)
  | slotBegin l => exact rowMoves_of_line rfl (slotBegin_lineFrame l)
  | characterTransmitted l => exact rowMoves_of_line rfl (characterSent_lineFrame l)
  | receivedCharacter l =>
    exact rowMoves_of_line rfl fun u => (startEdge_lineFrame l u).trans (completeCharacter_lineFrame l _ _)
  | falseStart l => exact rowMoves_of_line rfl (falseStart_lineFrame l)
  | replyWindowExpiry l => exact rowMoves_of_line rfl (windowExpiry_lineFrame l)
  | characterGapExpiry l => exact rowMoves_of_line rfl (charGapExpiry_lineFrame l)
  | quietIdleExpiry l =>
    exact rowMoves_of_line rfl fun u => by
      split
      · exact .refl l u
      · exact endQuiet_lineFrame l u
  | quietLimitExpiry l => exact rowMoves_of_line rfl (endQuiet_lineFrame l)
  | frameGapEnd l => exact rowMoves_of_line rfl (frameGapEnd_lineFrame l)
  | openSlotEnd l => exact rowMoves_of_line rfl (openSlotEnd_lineFrame l)
  | acyclicStart l => exact rowMoves_of_line rfl (startAcyclic_lineFrame l)
  | startEdge l => exact rowMoves_of_line rfl (startEdge_lineFrame l)
  | rxReturnedTo1 l =>
    exact rowMoves_of_line (f := rxReturned l) rfl fun u => by
      unfold rxReturned
      dsimp only
      split
      · exact .refl l u
      · exact setEngine_lineFrame l u _
  | syncSeenHigh => exact rowMoves_of_moves rfl (event_moves syncHigh_moves)

/-! ## Rows that spell another row (log 16) -/

/-- The command of a code is well formed, and only the code of SOFT_RESET resets. -/
theorem wellFormed_ofCode {code : Byte} {c : Instr} (h : commandOfCode code = some c) :
    c.wellFormed = true ∧ (isReset c → code = 0x7F) := by
  unfold commandOfCode at h
  split at h <;> cases h <;> next hcode => exact ⟨rfl, by simp [isReset, (BitVec.toNat_eq_nat.mp hcode).2]⟩

/-- The row of a write is well formed, and only SOFT_RESET written to CMD resets. -/
theorem wellFormed_ofOffset {offset : BitVec 6} {v : Byte} {c : Instr} (h : ownRowOfWrite offset v = some c) :
    c.wellFormed = true ∧ (isReset c → offset = 0x05 ∧ v = 0x7F) := by
  have code : ((commandOfCode v).getD (.badCommand v)).wellFormed = true
      ∧ (isReset ((commandOfCode v).getD (.badCommand v)) → (0x05 : BitVec 6) = 0x05 ∧ v = 0x7F) := by
    cases hv : commandOfCode v with
    | none => simp [Instr.wellFormed, hv, isReset]
    | some c => exact (wellFormed_ofCode hv).imp_right fun hr hc => ⟨rfl, hr hc⟩
  have rows : (rowsOfWrites v).Forall fun p => p.2.wellFormed = true ∧ (isReset p.2 → p.1 = 0x05 ∧ v = 0x7F) := by
    simpa [rowsOfWrites, Instr.wellFormed, isReset] using code
  exact List.forall_iff_forall_mem.mp rows _ ((ownRowOfWrite_iff offset v c).mp h)

theorem RowMoves.of_exec_eq {c c' : Instr} {s : State} (h : RowMoves c' s) (he : exec c s = exec c' s) (hr : isReset c' → isReset c) :
    RowMoves c s := by
  obtain ⟨t, ht, k⟩ := h
  exact ⟨t, he.trans ht, k.imp_right (And.imp_left hr)⟩

/-- Every row of the table. -/
theorem rowMoves (c : Instr) (s : State) : RowMoves c s := by
  by_cases hw : c.wellFormed = true
  · exact rowMoves_wellFormed c s hw
  · cases c <;> simp [Instr.wellFormed] at hw
    case badCommand code =>
      obtain ⟨c', hc⟩ := Option.isSome_iff_exists.mp (Option.isSome_iff_ne_none.mpr hw)
      obtain ⟨hwf, hreset⟩ := wellFormed_ofCode hc
      refine (rowMoves_wellFormed c' s hwf).of_exec_eq (exec_badCommand s hc) fun hr => ?_
      rw [hreset hr]; simp [isReset]
    case registerWrite offset v =>
      obtain ⟨c', hc⟩ := Option.isSome_iff_exists.mp (Option.isSome_iff_ne_none.mpr hw)
      obtain ⟨hwf, hreset⟩ := wellFormed_ofOffset hc
      refine (rowMoves_wellFormed c' s hwf).of_exec_eq (exec_registerWrite s hc) fun hr => ?_
      obtain ⟨rfl, rfl⟩ := hreset hr
      simp [isReset]

/-- Settles O17: a row that is no reset moves the count and the banks by a cycle begin only. -/
theorem countAndActiveBankChangeOnlyAtBegins : Obligations.CountAndActiveBankChangeOnlyAtBegins := by
  unfold Obligations.CountAndActiveBankChangeOnlyAtBegins
  intro c s t ht hc
  obtain ⟨t', ht', h⟩ := rowMoves c s
  obtain rfl : t' = t := by rw [ht'] at ht; exact Host.Outcome.next.inj ht
  rcases h with (h | h) | ⟨hr, -⟩
  · exact ⟨fun hn => absurd h.count hn, fun hn => absurd h.bank.active hn, fun _ => h.bank.activeBank⟩
  · refine ⟨fun _ => ⟨h.count, h.value, h.flag, h.unmarked⟩, fun hn => ?_, fun hn => ?_⟩
    · have harmed : s.schedule.changeover = .armed := by
        by_contra ha; exact hn (h.unswapped ha).active
      obtain ⟨hnone, hcount, -, hbank⟩ := h.swapped harmed
      exact ⟨harmed, hnone, hcount, h.count, hbank⟩
    · refine (h.unswapped fun ha => ?_).activeBank
      obtain ⟨-, -, hswap, -⟩ := h.swapped ha
      rw [hswap] at hn; simp at hn
  · exact absurd hr hc

/-! ## Every period -/

theorem Timer.reset_legal : Timer.reset.Legal := by unfold Timer.Legal; decide

/-- The counting of a period touches nothing that a legal timer is judged by (R14, R17). -/
theorem countAll_legal {s : State} (h : s.timer.Legal) : (countAll s).timer.Legal := by
  rw [countAll_eq_later]
  exact h

theorem lineMoment_lineFrame (l : Line) (s : State) : LineFrame l s (lineMoment l s) := by
  unfold lineMoment
  dsimp only
  split
  · split
    · exact characterSent_lineFrame l s
    · exact .refl l s
  · split
    · exact windowExpiry_lineFrame l s
    · exact .refl l s
  · split
    · exact charGapExpiry_lineFrame l s
    · exact .refl l s
  · split
    · exact endQuiet_lineFrame l s
    · split
      · exact endQuiet_lineFrame l s
      · exact .refl l s
  · split
    · exact frameGapEnd_lineFrame l s
    · exact .refl l s
  · exact .refl l s
  · exact .refl l s

/-- A line's sample takes one level from its pin, and has no hold on the timer. -/
theorem lineSample_timerFrame (l : Line) (s : State) : TimerFrame s (lineSample l s) := by
  rcases Nat.lt_or_ge (s.engine l).sampleClock ((s.engine l).divisor.toNat + 1) with h | h
  · rw [lineSample_notDue h]; exact .refl s
  · rw [lineSample_due h]
    have pin : TimerFrame s (s.sampled l (s.nextPin l)) := ⟨rfl, .refl _⟩
    exact pin.trans (sampleAt_lineFrame _).timerFrame

theorem lineAct_timerFrame (l : Line) (s : State) : TimerFrame s (lineAct l s) := by
  have moment (u : State) : TimerFrame u (lineMoment l u) := (lineMoment_lineFrame l u).timerFrame
  unfold lineAct
  refine TimerFrame.trans ?_ ((lineSample_timerFrame l _).trans ((moment _).trans (moment _)))
  split
  · exact moment s
  · exact .refl s

theorem storeAct_timerFrame {s : State} (h : Actor.store.due s = true) : TimerFrame s (Actor.store.act s) := by
  have drawn : TimerFrame s s.drawn := ⟨rfl, .refl _⟩
  by_cases hc : s.schedule.changeover = .checking
  · rcases (Actor.act_store_check hc).2 with he | ⟨p, he⟩
    · rw [he]; exact drawn.trans (endCheck_timerFrame _)
    · rw [he]; exact drawn.trans ⟨rfl, rfl, rfl⟩
  · rcases (Actor.act_store_copy hc ((Actor.due_store.mp h).resolve_left hc)).2 with he | he
    · rw [he]; exact drawn.trans (endCopy_timerFrame _)
    · rw [he]; exact drawn

/-- Each actor of a period. -/
theorem Actor.act_moves (a : Actor) (s : State) : Moves s (a.act s) := by
  cases hdue : a.due s with
  | false => rw [Actor.act_notDue hdue]; exact (TimerFrame.refl s).moves
  | true =>
    cases a with
    | timer => rw [Actor.act, if_pos hdue]; exact completeTick_moves s
    | sync => rw [Actor.act, if_pos hdue]; exact syncEdge_moves s
    | line l => rw [Actor.act, if_pos hdue]; exact (lineAct_timerFrame l s).moves
    | store => exact (storeAct_timerFrame hdue).moves

theorem Moves.legal {s t : State} (h : Moves s t) (hl : s.timer.Legal) : t.timer.Legal := h.elim (·.legal hl) (·.legal hl)

/-- The actors of a period, one after another. -/
theorem actors_legal (actors : List Actor) : ∀ s : State, s.timer.Legal → (actors.foldl (fun u a => a.act u) s).timer.Legal := by
  induction actors with
  | nil => exact fun _ => id
  | cons a actors ih => exact fun s h => ih _ ((a.act_moves s).legal h)

theorem clockPeriod_legal {s : State} (h : s.timer.Legal) : (clockPeriod s).timer.Legal := by
  unfold clockPeriod
  split
  · exact h
  · obtain ⟨n, -, hs, -⟩ := dueActors_cases (countAll (settleMoment s))
    refine actors_legal _ _ ?_
    rw [hs]
    refine countAll_legal (s := settleMoment s) ?_
    rw [(settleMoment_owedFrame s).timer]
    exact h

/-- Settles O16: a command moves the timer as its row does, and an empty queue lets a period pass. -/
theorem timerStaysLegal : Obligations.TimerStaysLegal := by
  unfold Obligations.TimerStaysLegal
  intro s t hl ht
  cases hp : s.pending with
  | nil =>
    simp only [step, hp] at ht
    cases ht
    exact clockPeriod_legal hl
  | cons c rest =>
    simp only [step, hp] at ht
    obtain ⟨t', ht', h⟩ := rowMoves c { s with pending := rest }
    obtain rfl : t' = t := by rw [ht'] at ht; exact Host.Outcome.next.inj ht
    rcases h with h | ⟨-, hr⟩
    · exact h.legal hl
    · rw [hr]; exact Timer.reset_legal

end Sys2Proof.Machine
end

section
/-! The Cycle Timer's commands, boundaries and SYNC samples (chapter 2). -/

namespace Sys2Proof.Machine

/-! ## CYCLE_START, CYCLE_SINGLE and CYCLE_STOP (R18 to R20) -/

/-- The Host Port has no part in the begin of a cycle. -/
theorem CycleBegun.withHosts {s t : State} {b : Timer} {own : List Event} {h : HostPort} (k : CycleBegun (s.withHost h) b own t)
    (h' : HostPort) : CycleBegun s b own (t.withHost h') := by
  obtain ⟨htimer, himages, hsch, hnotice, hevents, hframe⟩ := k
  exact ⟨htimer, himages, hsch, hnotice, hevents, congrArg (State.withHost · h') hframe⟩

/-- A command that begins a cycle from state `s` with the timer `b`: the begin, and the Host Port's answer (R22, R162). -/
theorem commandAccess_begins {s : State} {b : Timer} {code : Byte} {command : State → Except CmdStatus State} (hr : s.inReset = false)
    (hc : b.cycleCount = s.timer.cycleCount)
    (h : ∀ u : State, u.timer = s.timer → command u = .ok (cycleBegin none (u.withTimer b))) :
    ∃ t, Host.Outcome.next (commandAccess code command s) = (.next t : Next) ∧ CycleBegun s b [] t
      ∧ t.host = s.host.accepted code := by
  obtain ⟨hbegun, hhost⟩ := cycleBegin_begun none (s.withHost { s.host with data := none }) b hc
  refine ⟨_, rfl, ?_⟩
  rw [commandAccess_ok hr (h _ rfl)]
  refine ⟨hbegun.withHosts _, ?_⟩
  show { (cycleBegin none _).host with cmd := code, status := .accepted } = _
  rw [hhost]; rfl

/-- A command that sets the timer: the Host Port answers ACCEPTED (R162). -/
theorem commandAccess_sets {s : State} {b : Timer} {code : Byte} {command : State → Except CmdStatus State} (hr : s.inReset = false)
    (h : ∀ u : State, u.timer = s.timer → command u = .ok (u.withTimer b)) :
    commandAccess code command s = { s with timer := b, host := s.host.accepted code } := by
  rw [commandAccess_ok hr (h _ rfl)]; rfl

theorem startCycles_refused {s : State} (h : s.timer.state = .running ∨ s.timer.state = .single) :
    startCycles s = .error .wrongState := by
  rcases h with h | h <;> simp only [startCycles, h]

theorem singleCycle_refused {s : State} (h : ¬ (s.timer.state = .stopped ∧ s.timer.mode = .free)) :
    singleCycle s = .error .wrongState := if_neg h

theorem stopCycles_stops {s : State} (h : (s.timer.state = .running ∧ s.timer.sync ≠ .seeking) ∨ s.timer.state = .single) :
    stopCycles s = .ok (s.withTimer { s.timer with state := .stopping }) := by
  rcases h with ⟨h, hs⟩ | h
  · simp only [stopCycles, h, hs, if_false]
  · simp only [stopCycles, h]

/-- Settles O8, case by case of the three commands. -/
theorem cycleCommandsStartAndStop : Obligations.CycleCommandsStartAndStop := by
  unfold Obligations.CycleCommandsStartAndStop
  intro s hr
  refine ⟨fun hst hm => ⟨?_, ?_⟩, fun hst hm => ?_, fun hst => ?_, fun hst => ?_, fun hst => ?_, fun hst hs => ?_, fun hst => ?_,
    fun hst => ?_, fun hst => ?_⟩
  · exact commandAccess_begins hr rfl fun u hu => by simp only [startCycles, hu, hst, hm]
  · exact commandAccess_begins hr rfl fun u hu => by simp only [singleCycle, hu, hst, hm, and_self, if_true]
  · exact congrArg _ (commandAccess_sets hr fun u hu => by simp only [startCycles, hu, hst, hm])
  · exact congrArg _ (commandAccess_sets hr fun u hu => by simp only [startCycles, hu, hst])
  · exact congrArg _ (commandAccess_error hr (startCycles_refused hst))
  · exact congrArg _ (commandAccess_error hr (singleCycle_refused hst))
  · exact congrArg _ (commandAccess_sets hr fun u hu => by simp only [stopCycles, hu, hst, hs, if_true])
  · exact congrArg _ (commandAccess_sets hr fun u hu => by rw [stopCycles_stops (by rwa [hu]), hu])
  · have goes : stopCycles (s.withHost { s.host with data := none }) = .ok (s.withHost { s.host with data := none }) := by
      simp only [stopCycles, State.withHost_timer, hst]
    exact congrArg _ (commandAccess_ok hr goes)
  · exact congrArg _ (commandAccess_error hr (by simp only [stopCycles, State.withHost_timer, hst]))

/-! ## Boundaries (R21, R27, R28) -/

/-- The timer's own event lands when there is room for all that a cycle begin may append (R143, R146). -/
theorem CycleBegun.own_lands {s t : State} {b : Timer} {e : Event} (h : CycleBegun s b [e] t) (hroom : s.events.load + 4 ≤ 32) :
    e ∈ t.events.entries.drop s.events.entries.length := by
  obtain ⟨-, -, -, -, ⟨order, hperm, -, hlands⟩, -⟩ := h
  have hoverrun (l : Line) : (overrunCalled l 0 (s.engine l)).length ≤ 1 := by
    rw [← overrunEvents_called]; exact overrunEvents_length ..
  have ha := hoverrun .a
  have hb := hoverrun .b
  rw [hlands]
  · simpa using hperm.mem_iff.mpr (by simp)
  · simp only [List.length_append, List.length_singleton]
    split <;> simp only [List.length_singleton, List.length_nil] <;> omega

section Rows

variable {s : State}

theorem exec_periodEnd_settled (hr : s.inReset = false) (h : s.Settled) (hsync : s.timer.sync ≠ .locked) (hat : s.timer.atLimit = true) :
    exec .periodEnd s = .next (ownBoundary s) := by
  have run : exec .periodEnd s = .next (if s.timer.sync ≠ .locked ∧ s.timer.atLimit then ownBoundary (settle s) else s) := by
    rw [← State.event_run hr fun t => if t.timer.sync ≠ .locked ∧ t.timer.atLimit then ownBoundary (settle t) else t]; rfl
  rw [run, if_pos ⟨hsync, hat⟩, settle_settled h]

theorem exec_syncWindowExpiry_settled (hr : s.inReset = false) (h : s.Settled) (hsync : s.timer.sync = .locked)
    (hat : s.timer.atLimit = true) : exec .syncWindowExpiry s = .next (ownBoundary s) := by
  have run : exec .syncWindowExpiry s = .next (if s.timer.sync = .locked ∧ s.timer.atLimit then ownBoundary (settle s) else s) := by
    rw [← State.event_run hr fun t => if t.timer.sync = .locked ∧ t.timer.atLimit then ownBoundary (settle t) else t]; rfl
  rw [run, if_pos ⟨hsync, hat⟩, settle_settled h]

theorem exec_tick_atLimit (hr : s.inReset = false) (h : s.Settled) (hat : s.timer.atLimit = true) :
    exec .tick s = .next (ownBoundary s) := by
  rw [exec_tick_settled hr (s.timer.atLimit_iff.mp hat).1 h, completeTick_atLimit hat]

end Rows

/-- Settles O10: either row makes the timer's own boundary, which keeps the sync state. -/
theorem periodEndBeginsOrStops : Obligations.PeriodEndBeginsOrStops := by
  unfold Obligations.PeriodEndBeginsOrStops
  intro s c hc hr hsettled hrun hsync hvalue
  have hat : s.timer.atLimit = true :=
    s.timer.atLimit_iff.mpr ⟨hrun, by rw [Timer.limit_unlocked hsync]; exact hvalue.ge⟩
  have row : exec c s = .next (endCycle s.timer.sync none s) := by
    rw [← ownBoundary_unlocked hsync]
    rcases hc with rfl | rfl
    · exact exec_periodEnd_settled hr hsettled hsync hat
    · exact exec_tick_atLimit hr hsettled hat
  refine ⟨fun hst => ⟨_, row, ?_⟩, fun hst => ⟨_, row, ?_⟩⟩
  · rw [endCycle_running hst]; exact cycleBegin_begun none s s.timer rfl
  · rw [endCycle_ending hst]; exact stopBoundary_ended s s.timer

/-- Settles O11: either row makes the timer's own boundary, which loses sync. -/
theorem windowExpiryLosesSync : Obligations.WindowExpiryLosesSync := by
  unfold Obligations.WindowExpiryLosesSync
  intro s c hc hr hsettled hsync hvalue
  have row (hst : s.timer.state ≠ .stopped) : exec c s = .next (endCycle .holdover (some .syncLost) s) := by
    have hat : s.timer.atLimit = true :=
      s.timer.atLimit_iff.mpr ⟨s.timer.cycleRunning_iff.mpr ⟨hst, by simp [hsync]⟩, by
        rw [Timer.limit_locked hsync]; exact hvalue.ge⟩
    rw [← ownBoundary_locked hsync]
    rcases hc with rfl | rfl
    · exact exec_syncWindowExpiry_settled hr hsettled hsync hat
    · exact exec_tick_atLimit hr hsettled hat
  refine ⟨fun hst => ⟨_, row (by simp [hst]), ?_⟩, fun hst => ⟨_, row (by simp [hst]), ?_⟩⟩
  · rw [endCycle_running hst]
    obtain ⟨hbegun, hhost⟩ := cycleBegin_begun (some .syncLost) s { s.timer with sync := .holdover } rfl
    exact ⟨hbegun, hhost, hbegun.own_lands⟩
  · rw [endCycle_ending (.inl hst)]; exact stopBoundary_ended s s.timer

/-! ## SYNC samples (R17, R25, R26, R28) -/

section Edges

variable {s : State}

theorem exec_syncSeenHigh (hr : s.inReset = false) : exec .syncSeenHigh s = .next (syncHigh s) := by
  rw [← State.event_run hr syncHigh]; rfl

/-- The end of a cycle by an edge: in RUNNING a cycle begin in LOCKED, in STOPPING a stop boundary. -/
theorem endCycle_edge_begun (hst : s.timer.state = .running) (own : Option EventKind) :
    CycleBegun s { s.timer with sync := .locked, prevSync := some false } (syncEvent own (s.timer.cycleCount + 1))
      (endCycle .locked own s.edgeSeen) ∧ (endCycle .locked own s.edgeSeen).host = s.host := by
  rw [endCycle_running (s := s.edgeSeen) hst]
  exact cycleBegin_begun own s { s.timer with sync := .locked, prevSync := some false } rfl

theorem endCycle_edge_ended (hst : s.timer.state = .stopping) (own : Option EventKind) :
    CyclesEnded s { s.timer with prevSync := some false } (endCycle .locked own s.edgeSeen) := by
  rw [endCycle_ending (s := s.edgeSeen) (.inl hst)]
  exact stopBoundary_ended s _

end Edges

/-- Settles O12, by mode, previous sample, sync state and timer state. -/
theorem syncSamplesActBySyncState : Obligations.SyncSamplesActBySyncState := by
  unfold Obligations.SyncSamplesActBySyncState
  intro s hr
  refine ⟨fun hm => ?_, fun hm => ⟨?_, ?_⟩, fun hp => ?_, fun hm hp hst => ?_⟩
  · rw [exec_syncSeenHigh hr, syncHigh, if_pos hm]; rfl
  · rw [exec_syncSeenHigh hr, syncHigh, if_neg (by simp [hm])]
  · rw [exec_syncFallingEdge hr, syncEdge_ignored (by simp [hm])]
  · rw [exec_syncFallingEdge hr, syncEdge_ignored fun h => hp h.2]
  rw [exec_syncFallingEdge hr]
  refine ⟨fun hs => ?_, fun hs hearly => ?_, fun hs hin => ?_, fun hs => ?_⟩
  · rw [syncEdge_seeking hm hp hst hs]
    exact ⟨_, rfl, cycleBegin_begun none s _ rfl⟩
  · rw [syncEdge_early hm hp hst hs hearly]; rfl
  · rw [syncEdge_accepted hm hp hst hs hin]
    refine ⟨fun hrunning => ⟨_, rfl, ?_⟩, fun hstopping => ⟨_, rfl, endCycle_edge_ended hstopping none⟩⟩
    have hsame : ({ s.timer with prevSync := some false } : Timer) = { s.timer with sync := .locked, prevSync := some false } := by
      rw [← hs]
    rw [hsame]
    exact endCycle_edge_begun hrunning none
  · rw [syncEdge_holdover hm hp hst hs]
    refine ⟨fun hrunning => ⟨_, rfl, ?_⟩, fun hstopping => ⟨_, rfl, endCycle_edge_ended hstopping _⟩⟩
    obtain ⟨hbegun, hhost⟩ := endCycle_edge_begun hrunning (some .syncRegained)
    exact ⟨hbegun, hhost, hbegun.own_lands⟩

end Sys2Proof.Machine
end

section
/-! Ticks, the SYNC pin, the timer's settings and its reads (chapter 2). -/

namespace Sys2Proof.Machine

/-! ## Ticks and the SYNC pin (R14, R17) -/

theorem cyclesRunToTheirLimit : CyclesRunToTheirLimit := fun t => ⟨t.cycleRunning_iff, Timer.limit_locked, Timer.limit_unlocked⟩

theorem State.syncPin_undriven {s : State} (h : s.inReset = true ∨ s.timer.mode = .follow ∨ s.timer.syncOutEnable = false) :
    s.syncPin = none := by
  refine if_pos ?_
  rcases h with h | h | h <;> simp [Timer.syncIsOutput, h]

theorem State.syncPin_driven {s : State} (hr : s.inReset = false) (hm : s.timer.mode = .free) (ho : s.timer.syncOutEnable = true) :
    s.syncPin = some (!s.timer.pulse) := if_neg (by simp [Timer.syncIsOutput, hr, hm, ho])

theorem syncIsDriven : SyncIsDriven := by
  intro s
  refine ⟨State.syncPin_undriven, fun hr hm ho => ?_⟩
  rw [State.syncPin_driven hr hm ho]
  refine ⟨fun hp => by rw [hp]; rfl, fun hp => by rw [hp]; rfl, fun hl hst => ?_⟩
  obtain ⟨-, -, hp⟩ := hl.at_rest hst
  rw [hp]; rfl

/-- Settles O9: a settled tick is the completion of a tick, which below the limit is the next value. -/
theorem tickAdvancesTheValue : Obligations.TickAdvancesTheValue := by
  unfold Obligations.TickAdvancesTheValue
  refine ⟨cyclesRunToTheirLimit, syncIsDriven, fun s hr => ⟨fun hrun => ?_, fun hs hrun hbelow => ?_⟩⟩
  · have row : exec .tick s = .next (if s.timer.cycleRunning then completeTick (settle s) else s) := by
      rw [← State.event_run hr fun t => if t.timer.cycleRunning then completeTick (settle t) else t]; rfl
    rw [row, if_neg (by simp [hrun])]
  · rw [exec_tick_settled hr hrun hs, completeTick_below hrun hbelow]; rfl

/-! ## Settings (R15, R16) -/

/-- A setting that is taken (R15). -/
theorem settingWrite_taken {s : State} {taken : Bool} (hr : s.inReset = false) (h : taken = true) (f : Timer → Timer) :
    s.access (settingWrite taken f) = { s with timer := f s.timer, host := { s.host with data := none } } := by
  rw [State.access_run hr, settingWrite, if_pos h]; rfl

/-- A setting that is ignored (R15). -/
theorem settingWrite_locked {s : State} {taken : Bool} (hr : s.inReset = false) (h : taken = false) (f : Timer → Timer) :
    s.access (settingWrite taken f) = { s with host := { s.host with data := none, setLocked := true } } := by
  rw [State.access_run hr, settingWrite, if_neg (by simp [h])]; rfl

section Rows

variable {s : State} (v : Byte)

/-- The rows of the settings, each judged by the timer it finds. -/
theorem exec_cytModeWrite (hr : s.inReset = false) : exec (.cytModeWrite v) s = .next (s.access (settingWrite s.timer.settable
    fun t => { t with mode := if v.getLsbD 0 then .follow else .free, syncOutEnable := v.getLsbD 1 })) := by
  rw [State.access_run hr]; exact congrArg _ (State.access_run hr _)

theorem exec_cytPrescaleWrite (hr : s.inReset = false) :
    exec (.cytPrescaleWrite v) s = .next (s.access (settingWrite s.timer.settable fun t => { t with prescaler := v })) := by
  rw [State.access_run hr]; exact congrArg _ (State.access_run hr _)

theorem exec_cytWindowWrite (hr : s.inReset = false) : exec (.cytWindowWrite v) s =
    .next (s.access (settingWrite (s.timer.settable && s.timer.windowFits v) fun t => { t with window := v })) := by
  rw [State.access_run hr]; exact congrArg _ (State.access_run hr _)

theorem exec_cytPeriodHighWrite (hr : s.inReset = false) : exec (.cytPeriodHighWrite v) s =
    .next (s.access (settingWrite (periodFits s (v ++ s.timer.periodHold)) fun t => { t with period := v ++ s.timer.periodHold })) := by
  rw [State.access_run hr]; exact congrArg _ (State.access_run hr _)

end Rows

/-- Settles O13, row by row, taken and ignored. -/
theorem timerSettingsAreWrittenWhileStopped : Obligations.TimerSettingsAreWrittenWhileStopped := by
  unfold Obligations.TimerSettingsAreWrittenWhileStopped
  intro s v hr
  rw [exec_cytModeWrite v hr, exec_cytPrescaleWrite v hr, exec_cytWindowWrite v hr]
  refine ⟨fun hst => ?_, fun hst hne hsum => ?_, fun hout => ?_, fun hst => ?_⟩
  · have htaken := s.timer.settable_iff.mpr hst
    exact ⟨congrArg _ (settingWrite_taken hr htaken _), congrArg _ (settingWrite_taken hr htaken _)⟩
  · have htaken : (s.timer.settable && s.timer.windowFits v) = true :=
      Bool.and_eq_true_iff.mpr ⟨s.timer.settable_iff.mpr hst, (s.timer.windowFits_iff v).mpr ⟨hne, hsum⟩⟩
    exact congrArg _ (settingWrite_taken hr htaken _)
  · have hlocked : (s.timer.settable && s.timer.windowFits v) = false := by
      rw [← Bool.not_eq_true, Bool.and_eq_true, Timer.settable_iff, Timer.windowFits_iff]
      rintro ⟨hst, hne, hsum⟩
      rcases hout with h | h | h
      · exact h hst
      · exact hne h
      · omega
    exact congrArg _ (settingWrite_locked hr hlocked _)
  · have hlocked : s.timer.settable = false := Bool.not_eq_true _ ▸ fun h => hst (s.timer.settable_iff.mp h)
    exact ⟨congrArg _ (settingWrite_locked hr hlocked _), congrArg _ (settingWrite_locked hr hlocked _)⟩

theorem directRead_period (s : State) : directRead s 0x13 ++ directRead s 0x12 = s.timer.period := highByte_append_lowByte _

/-- SOFT_RESET takes the reset state (R166). -/
theorem exec_softReset {s : State} (hr : s.inReset = false) : exec .softReset s = .next ((resetBlocks s).withHost
    { HostPort.reset with cause := .soft, cmd := 0x7F, status := .accepted }) := by
  have run : exec .softReset s = .next (commandAccess 0x7F softReset s) := rfl
  rw [run, commandAccess_ok (command := softReset) hr rfl]; rfl

/-- Settles O14: the row's own test is R16's, and its reads and resets are the period in force. -/
theorem periodWriteObeysSixConditions : Obligations.PeriodWriteObeysSixConditions := by
  unfold Obligations.PeriodWriteObeysSixConditions
  refine ⟨fun s v hr => ⟨?_, fun ht => ?_, fun ht => ?_⟩, directRead_period, fun s t hr ht => ?_, rfl⟩
  · exact congrArg _ (State.access_run hr _)
  · rw [exec_cytPeriodHighWrite v hr, settingWrite_taken hr ((periodFits_iff ..).mpr ht)]
  · rw [exec_cytPeriodHighWrite v hr, settingWrite_locked hr (by rwa [← Bool.not_eq_true, periodFits_iff])]
  · rcases ht with ht | ht
    · cases (exec_softReset hr).symm.trans ht; exact ⟨rfl, rfl⟩
    · cases ht; exact ⟨rfl, rfl⟩

/-! ## Reads of two-byte counts (R29, R45) -/

/-- An access of a part that runs (R154, R165). -/
theorem exec_ofAccess {s : State} {c : Instr} {f : State → State} (hr : s.inReset = false) (h : exec c s = .next (s.access f)) :
    exec c s = .next (f (s.withHost { s.host with data := none })) := by
  rw [h, State.access_run hr]

section Reads

variable {s : State}

theorem exec_cytValueLowRead (hr : s.inReset = false) : exec .cytValueLowRead s = .next { s with
    timer := { s.timer with valueLatch := highByte s.timer.value }, host := { s.host with data := some (lowByte s.timer.value) } } :=
  (exec_ofAccess (c := .cytValueLowRead) hr rfl).trans rfl

theorem exec_cycleCountLowRead (hr : s.inReset = false) : exec .cycleCountLowRead s = .next { s with
    timer := { s.timer with countLatch := highByte s.timer.cycleCount }
    host := { s.host with data := some (lowByte s.timer.cycleCount) } } :=
  (exec_ofAccess (c := .cycleCountLowRead) hr rfl).trans rfl

theorem exec_schChangeoversLowRead (hr : s.inReset = false) : exec .schChangeoversLowRead s = .next { s with
    schedule := { s.schedule with changeoversLatch := highByte s.schedule.changeovers }
    host := { s.host with data := some (lowByte s.schedule.changeovers) } } :=
  (exec_ofAccess (c := .schChangeoversLowRead) hr rfl).trans rfl

end Reads

/-- Settles O15: each read answers the low byte and latches the high byte. -/
theorem lowByteReadsLatchTheHighByte : Obligations.LowByteReadsLatchTheHighByte := by
  unfold Obligations.LowByteReadsLatchTheHighByte
  refine ⟨fun s => ⟨rfl, rfl, rfl⟩, fun s hr => ⟨?_, ?_, ?_⟩⟩
  · exact ⟨_, exec_cytValueLowRead hr, highByte_append_lowByte _, rfl⟩
  · exact ⟨_, exec_cycleCountLowRead hr, highByte_append_lowByte _, rfl⟩
  · exact ⟨_, exec_schChangeoversLowRead hr, highByte_append_lowByte _, rfl⟩

end Sys2Proof.Machine
end

section
/-! The state after reset meets every invariant (R31, R54, R81, R83, R107, R118, R141, R153). -/

namespace Sys2Proof.Machine

/-- A list of no entries is valid against every period (R34, R39). -/
theorem SlotList.reset_valid (period : Half) : SlotList.reset.Valid period :=
  ⟨by decide, fun _ h => absurd h (Nat.not_lt_zero _), fun _ _ _ h => absurd h (Nat.not_lt_zero _)⟩

theorem Bank.reset_valid (period : Half) : Bank.Valid Bank.reset period := ⟨SlotList.reset_valid period, SlotList.reset_valid period⟩

theorem Engine.reset_settings : Engine.reset.SettingsLegal := by unfold Engine.SettingsLegal; decide

/-- An OFF engine that holds nothing is legal. -/
theorem Engine.reset_legal : Engine.reset.Legal := by
  simp [Engine.Legal, Engine.reset, Engine.HoldsNothing, Engine.inFlight]

theorem Station.reset_legal : Station.reset.Legal := by unfold Station.Legal; decide

theorem Mailbox.reset_legal : Mailbox.reset.Legal := ⟨rfl, rfl, rfl⟩

theorem State.reset_engine (l : Line) : State.reset.engine l = Engine.reset := by cases l <;> rfl

theorem State.reset_station (l : Line) (i : Fin 62) : State.reset.station l i = Station.reset := by
  cases l <;> exact Vector.getElem_replicate ..

theorem State.reset_mailbox (m : Fin 48) : State.reset.mailboxes[m] = Mailbox.reset := Vector.getElem_replicate ..

theorem State.reset_acyclic (l : Line) : State.reset.acyclic.get l = AcyclicStore.reset := by cases l <;> rfl

/-- After reset every buffer is on the free list (R107). -/
theorem State.reset_bufferPlaces : State.reset.bufferPlaces = List.finRange 72 := by
  have mailboxes : State.reset.mailboxes.toList = List.replicate 48 Mailbox.reset := Vector.toList_replicate
  unfold State.bufferPlaces
  rw [mailboxes, State.reset_engine, State.reset_engine]
  simp [Engine.reset, Mailbox.reset, State.reset, EventQueue.reset, Pool.reset]

theorem State.reset_scheduleLegal : State.reset.ScheduleLegal :=
  ⟨Bank.reset_valid _, nofun, by simp [State.reset, Schedule.reset], nofun⟩

theorem State.reset_stationsLegal : State.reset.StationsLegal := fun l =>
  ⟨by rw [State.reset_engine]; exact Engine.reset_settings, fun i => by rw [State.reset_station]; exact Station.reset_legal⟩

theorem State.reset_enginesLegal (l : Line) : (State.reset.engine l).Legal := by rw [State.reset_engine]; exact Engine.reset_legal

theorem State.reset_buffersLegal : State.reset.BuffersLegal :=
  ⟨.of_eq State.reset_bufferPlaces, State.reset_enginesLegal, fun m => by rw [State.reset_mailbox]; exact Mailbox.reset_legal⟩

theorem State.reset_queuesLegal : State.reset.QueuesLegal := by
  refine ⟨by decide, fun l => ?_, fun l => ?_, fun l d hd => ?_, fun l q hq => ?_, State.reset_enginesLegal⟩
  · cases l <;> rfl
  · rw [State.reset_acyclic]; exact Nat.zero_le _
  · rw [State.reset_acyclic] at hd; cases hd
  · rw [State.reset_engine] at hq; cases hq

/-- Settles O7. -/
theorem resetStateIsLegal : Obligations.ResetStateIsLegal := by
  unfold Obligations.ResetStateIsLegal
  exact ⟨Timer.reset_legal, State.reset_scheduleLegal, State.reset_stationsLegal, State.reset_buffersLegal, State.reset_queuesLegal⟩

end Sys2Proof.Machine
end

section
/-! The direct registers: what every offset reads, the flags and the interrupt line, and the writes of the Host Port (chapter 10,
section 11.1). -/

namespace Sys2Proof.Machine

/-! ## Packed registers -/

theorem byteOfBits_cons (b : Bool) (bits : List Bool) : byteOfBits (b :: bits) = (byteOfBits bits <<< 1) ||| byteOfBool b := rfl

theorem getLsbD_byteOfBool (b : Bool) (n : Nat) : (byteOfBool b).getLsbD n = (decide (n = 0) && b) := by
  cases b <;> cases n <;> simp [byteOfBool]

/-- A packed register shows each bit at its position, and 0 above them (section 11.1, R168). -/
theorem getLsbD_byteOfBits (bits : List Bool) : ∀ n, (byteOfBits bits).getLsbD n = (decide (n < 8) && bits.getD n false) := by
  induction bits with
  | nil => simp [byteOfBits]
  | cons b bits ih =>
    intro n
    rw [byteOfBits_cons, BitVec.getLsbD_or, BitVec.getLsbD_shiftLeft, getLsbD_byteOfBool]
    cases n with
    | zero => simp
    | succ n =>
      rw [Nat.add_sub_cancel, ih]
      by_cases h : n + 1 < 8
      · simp [h, Nat.lt_of_succ_lt h]
      · simp [h]

/-- Codes in a table's order are read back from it (section 11.10). -/
theorem statusCode_row (c : CmdStatus) : [CmdStatus.none, .accepted, .badCommand, .badArgument, .wrongState, .busy, .full, .empty,
    .notFound, .tooLate, .notClaimed, .alreadyClaimed][(statusCode c).toNat]? = some c := by cases c <;> rfl

theorem engineCode_row (e : EngineState) :
    [EngineState.off, .wait, .transmit, .await, .receive, .quiet, .gap][(engineCode e).toNat]? = some e := by cases e <;> rfl

/-- CYT_STATUS: the timer state below, the sync state above (section 11.1). -/
theorem cytStatus_codes (t : Timer) :
    [TimerState.stopped, .running, .stopping, .single][(cytStatus t).toNat % 4]? = some t.state
    ∧ [SyncState.notUsed, .seeking, .locked, .holdover][(cytStatus t).toNat / 16]? = some t.sync
    ∧ (cytStatus t).toNat % 16 < 4 := by
  unfold cytStatus
  cases t.state <;> cases t.sync <;> decide

/-- SCH_STATUS: the changeover state, the active bank and the copy (section 11.1). -/
theorem schStatus_codes (s : Schedule) :
    [ChangeoverState.none, .checking, .armed][(schStatus s).toNat % 4]? = some s.changeover
    ∧ (schStatus s).getLsbD 4 = s.active ∧ (schStatus s).getLsbD 5 = s.copy.isSome
    ∧ ∀ n, n = 2 ∨ n = 3 ∨ n = 6 ∨ n = 7 → (schStatus s).getLsbD n = false := by
  unfold schStatus
  cases s.changeover <;> cases s.active <;> cases s.copy.isSome <;>
    exact ⟨rfl, rfl, rfl, by rintro n (rfl | rfl | rfl | rfl) <;> rfl⟩

theorem toNat_ofNat_byte {n : Nat} (h : n ≤ 72) : (BitVec.ofNat 8 n).toNat = n := by
  rw [BitVec.toNat_ofNat]; exact Nat.mod_eq_of_lt (by omega)

/-! ## What the registers read -/

theorem hostStatus_bits (h : HostPort) (n : Nat) : (hostStatus h).getLsbD n = (decide (n < 8) &&
    [h.winError, h.winLocked, h.setLocked, h.cmdRefused, false, false, false, h.cause == .soft].getD n false) := getLsbD_byteOfBits ..

theorem irqStatus_bits (s : State) (n : Nat) :
    s.irqStatus.getLsbD n = (decide (n < 8) && [s.evq, s.cyc, s.err].getD n false) := getLsbD_byteOfBits ..

theorem registersRead (s : State) : RegistersRead s := by
  refine ⟨rfl, rfl, ⟨hostStatus_bits s.host 0, hostStatus_bits s.host 1, hostStatus_bits s.host 2, hostStatus_bits s.host 3, ?_, ?_⟩,
    ⟨?_, ?_⟩, rfl, rfl, rfl, statusCode_row _, highByte_append_lowByte _, ⟨?_, getLsbD_byteOfBits _ 1, ?_⟩, rfl,
    directRead_period s, rfl, cytStatus_codes _, rfl, rfl, rfl, schStatus_codes _, rfl, toNat_ofNat_byte,
    fun h => toNat_ofNat_byte (h.trans (by decide)), rfl, rfl, ?_⟩
  · show (hostStatus s.host).getLsbD 7 = true ↔ _
    rw [hostStatus_bits]; exact beq_iff_eq
  · rintro n (rfl | rfl | rfl) <;> exact hostStatus_bits s.host _
  · intro n hn
    show (s.host.irqEnable.setWidth 8).getLsbD n = _
    rw [BitVec.getLsbD_setWidth, decide_eq_true (by omega), Bool.true_and]
  · intro n hn
    show (s.host.irqEnable.setWidth 8).getLsbD n = _
    rw [BitVec.getLsbD_setWidth, BitVec.getLsbD_of_ge _ _ hn, Bool.and_false]
  · show (cytMode s.timer).getLsbD 0 = true ↔ _
    rw [cytMode, getLsbD_byteOfBits]; exact beq_iff_eq
  · intro n hn
    show (cytMode s.timer).getLsbD n = false
    rw [cytMode, getLsbD_byteOfBits, List.getD_eq_default _ _ hn, Bool.and_false]
  · intro offset h
    simp only [List.mem_cons, List.not_mem_nil, or_false] at h
    rcases h with rfl | rfl | rfl | rfl | rfl | rfl | rfl | rfl | rfl <;> rfl

/-- A line's block reads its engine (section 11.1). -/
theorem directRead_block (s : State) (l : Line) {k : BitVec 6} (h : k.toNat < 12) :
    directRead s ((if l = .a then 0x20 else 0x30) + k) = lineBlockRead (s.engine l) k.toNat := by
  generalize hn : k.toNat = n at h
  rw [(BitVec.toNat_eq_nat.mp hn).2]
  cases l <;> interval_cases n <;> rfl

theorem lineBlocksRead (s : State) : LineBlocksRead s := by
  intro l e block
  have read {k : BitVec 6} (h : k.toNat < 12) : block k = lineBlockRead e k.toNat := directRead_block s l h
  refine ⟨?_, read (k := 2) (by decide), read (k := 3) (by decide), read (k := 4) (by decide), read (k := 5) (by decide),
    ?_, ?_, ?_, ?_, ?_, read (k := 10) (by decide), read (k := 11) (by decide)⟩
  · rw [read (k := 1) (by decide), read (k := 0) (by decide)]; exact highByte_append_lowByte _
  · rw [read (k := 6) (by decide)]
    refine ⟨getLsbD_byteOfBool _ 0, fun n hn => ?_⟩
    show (byteOfBool e.echoCheck).getLsbD n = false
    rw [getLsbD_byteOfBool, decide_eq_false (by omega), Bool.false_and]
  · rw [read (k := 7) (by decide)]
    refine ⟨getLsbD_byteOfBits _ 0, getLsbD_byteOfBits _ 1, getLsbD_byteOfBits _ 2, getLsbD_byteOfBits _ 3, fun n hn => ?_⟩
    show (maskByte e.mask).getLsbD n = false
    rw [maskByte, getLsbD_byteOfBits, List.getD_eq_default _ _ hn, Bool.and_false]
  · rw [read (k := 8) (by decide)]; exact engineCode_row _
  · intro c hc
    rw [read (k := 9) (by decide)]
    show e.indexByte.toNat = _
    rw [Engine.indexByte, hc]
    exact toNat_ofNat_byte (by omega)
  · intro hc
    rw [read (k := 9) (by decide)]
    show e.indexByte = _
    rw [Engine.indexByte, hc]

/-! ## The writes of the Host Port (R24, R151, R152, R155, R161, R162) -/

section Writes

variable {s : State} (v : Byte)

theorem exec_hostStatusWrite (hr : s.inReset = false) : exec (.hostStatusWrite v) s = .next { s with
    host := clearSticky { s.host with data := none } v } :=
  (exec_ofAccess (c := .hostStatusWrite v) hr rfl).trans rfl

/-- A 1 in the CYC position clears the CYCLE flag (R24, R151). -/
theorem exec_irqStatusWrite (hr : s.inReset = false) : exec (.irqStatusWrite v) s = .next { s with
    timer := { s.timer with cycleFlag := s.timer.cycleFlag && !v.getLsbD 1 }, host := { s.host with data := none } } := by
  refine (exec_ofAccess (c := .irqStatusWrite v) hr rfl).trans ?_
  cases v.getLsbD 1
  · simp only [Bool.not_false, Bool.and_true]; rfl
  · simp only [Bool.not_true, Bool.and_false]; rfl

theorem exec_irqEnableWrite (hr : s.inReset = false) : exec (.irqEnableWrite v) s = .next { s with
    host := { s.host with data := none, irqEnable := v.setWidth 3 } } :=
  (exec_ofAccess (c := .irqEnableWrite v) hr rfl).trans rfl

/-- A code that names no command is refused (R162). -/
theorem exec_badCommand_refused {code : Byte} (hr : s.inReset = false) (h : commandOfCode code = none) :
    exec (.badCommand code) s = .next (s.refused code .badCommand) := by
  have run : exec (.badCommand code) s = badCode code s := by rw [exec, execBadCommand, h]
  rw [run, badCode, commandAccess_error hr rfl]

/-- A register write at an offset without a row of its own (R155). -/
theorem exec_registerWrite_plain {offset : BitVec 6} (hr : s.inReset = false) (h : ownRowOfWrite offset v = none) :
    exec (.registerWrite offset v) s = .next (plainWrite offset v (s.withHost { s.host with data := none })) := by
  have run : exec (.registerWrite offset v) s = .next (s.access (plainWrite offset v)) := by rw [exec, execRegisterWrite, h]
  exact exec_ofAccess hr run

/-- A write that no register takes is ignored (R156, R168). -/
theorem plainWrite_ignored {offset : BitVec 6} (h : offset ≠ 0x06 ∧ offset ≠ 0x07 ∧ offset ≠ 0x09 ∧ offset ≠ 0x0A) :
    plainWrite offset v s = s := by
  obtain ⟨h6, h7, h9, hA⟩ := h
  unfold plainWrite
  split
  · next hn => exact absurd (BitVec.toNat_eq_nat.mp hn).2 h6
  · next hn => exact absurd (BitVec.toNat_eq_nat.mp hn).2 h7
  · next hn => exact absurd (BitVec.toNat_eq_nat.mp hn).2 h9
  · next hn => exact absurd (BitVec.toNat_eq_nat.mp hn).2 hA
  · rfl

end Writes

/-! ## The interrupt line (R151, R152) -/

theorem State.evq_iff (s : State) : s.evq = true ↔ s.events.entries ≠ [] := by simp [State.evq]

/-- The interrupt line is driven while a status is set and enabled. -/
theorem State.irqDriven_iff (s : State) :
    s.irqDriven = true ↔ ∃ n < 3, s.irqStatus.getLsbD n = true ∧ s.host.irqEnable.getLsbD n = true := by
  simp only [State.irqDriven, Bool.or_eq_true, Bool.and_eq_true]
  constructor
  · rintro ((⟨hs, he⟩ | ⟨hs, he⟩) | ⟨hs, he⟩)
    · exact ⟨0, by decide, (irqStatus_bits s 0).trans hs, he⟩
    · exact ⟨1, by decide, (irqStatus_bits s 1).trans hs, he⟩
    · exact ⟨2, by decide, (irqStatus_bits s 2).trans hs, he⟩
  · rintro ⟨n, hn, hs, he⟩
    rw [irqStatus_bits] at hs
    interval_cases n
    · exact .inl (.inl ⟨hs, he⟩)
    · exact .inl (.inr ⟨hs, he⟩)
    · exact .inr ⟨hs, he⟩

/-- Settles O55, register by register. -/
theorem hostRegistersAndInterrupts : Obligations.HostRegistersAndInterrupts := by
  unfold Obligations.HostRegistersAndInterrupts
  refine ⟨fun s => ⟨registersRead s, lineBlocksRead s⟩, commandOfCode_iff, ownRowOfWrite_iff, fun s v hr => ?_⟩
  refine ⟨exec_hostStatusWrite v hr, exec_irqStatusWrite v hr, exec_irqEnableWrite v hr, ?_, irqStatus_bits s 1, irqStatus_bits s 2,
    fun n hn => ?_, s.irqDriven_iff, fun code => exec_badCommand_refused hr, exec_registerWrite_plain v hr rfl,
    exec_registerWrite_plain v hr rfl, ?_, ?_, fun offset hrow h6 h7 h9 hA => ?_, fun offset i => exec_registerWrite s⟩
  · show s.irqStatus.getLsbD 0 = true ↔ _
    rw [← s.evq_iff, irqStatus_bits]; exact Iff.rfl
  · show s.irqStatus.getLsbD n = false
    rw [irqStatus_bits, List.getD_eq_default _ _ hn, Bool.and_false]
  · rw [← highByte_eq_extract]; exact exec_registerWrite_plain v hr rfl
  · exact exec_registerWrite_plain v hr rfl
  · rw [exec_registerWrite_plain v hr hrow, plainWrite_ignored v ⟨h6, h7, h9, hA⟩]; rfl

end Sys2Proof.Machine
end

section
/-! The check of a bank (R39, R41): its entries by number, its lists by index, line A before line B. -/

namespace Sys2Proof.Machine

/-! ## An entry's checks by number (R41) -/

/-- An answer names the first number from `k` on that fails, and is none when none does. -/
def FirstFails (fails : Nat → Prop) (k : Nat) (answer : Option Byte) : Prop :=
  (∀ r, answer = some r → k ≤ r.toNat ∧ fails r.toNat ∧ ∀ n, k ≤ n → n < r.toNat → ¬ fails n)
  ∧ (answer = none → ∀ n, k ≤ n → ¬ fails n)

/-- One row of a table of checks before the rows below it. -/
theorem FirstFails.row {fails : Nat → Prop} {c : Prop} [Decidable c] {rest : Option Byte} (k : Nat) (hk : k < 256) (hc : c ↔ fails k)
    (h : FirstFails fails (k + 1) rest) : FirstFails fails k (if c then some (BitVec.ofNat 8 k) else rest) := by
  obtain ⟨hsome, hnone⟩ := h
  have hnumber : (BitVec.ofNat 8 k).toNat = k := by simp [hk]
  by_cases hf : c
  · rw [if_pos hf]
    refine ⟨fun r hr => ?_, nofun⟩
    cases hr
    rw [hnumber]
    exact ⟨le_rfl, hc.mp hf, fun n _ _ => by omega⟩
  · rw [if_neg hf]
    have passed : ∀ n, k ≤ n → (k + 1 ≤ n → ¬ fails n) → ¬ fails n := fun n hn hlater => by
      rcases Nat.eq_or_lt_of_le hn with rfl | hlt
      · exact fun h => hf (hc.mpr h)
      · exact hlater hlt
    refine ⟨fun r hr => ?_, fun hr n hn => passed n hn (hnone hr n)⟩
    obtain ⟨hle, hfails, hfirst⟩ := hsome r hr
    exact ⟨by omega, hfails, fun n hn hlt => passed n hn fun hl => hfirst n hl hlt⟩

theorem byte_outside_iff (x : Byte) (top : Nat) : x = 0 ∨ top < x.toNat ↔ ¬ (1 ≤ x.toNat ∧ x.toNat ≤ top) := by
  rw [← BitVec.toNat_inj]
  simp only [BitVec.ofNat_eq_ofNat, BitVec.toNat_ofNat, Nat.zero_mod]
  omega

section Entries

variable (e : Entry) (period : Half) (before : Option Half)

/-- No check has a number outside the table (R41). -/
theorem Entry.failsCheck_number {n : Nat} (h : e.FailsCheck period before n) : 2 ≤ n ∧ n ≤ 17 := by
  unfold Entry.FailsCheck at h
  split at h <;> first | omega | exact h.elim

/-- The checks run down the table of R41. -/
theorem Entry.failedCheck_first : FirstFails (e.FailsCheck period before) 2 (e.failedCheck period before) := by
  refine .row 2 (by decide) Iff.rfl <| .row 3 (by decide) ?_ <| .row 4 (by decide) Iff.rfl <| .row 5 (by decide) Iff.rfl <|
    .row 6 (by decide) ?_ <| .row 7 (by decide) Iff.rfl <| .row 8 (by decide) Iff.rfl <| .row 9 (by decide) ?_ <|
    .row 10 (by decide) Iff.rfl <| .row 11 (by decide) Iff.rfl <| .row 12 (by decide) Iff.rfl <| .row 13 (by decide) Iff.rfl <|
    .row 14 (by decide) ?_ <| .row 15 (by decide) Iff.rfl <| .row 16 (by decide) Iff.rfl <| .row 17 (by decide) Iff.rfl
    ⟨nofun, fun _ n hn h => ?_⟩
  · cases before <;> simp [Entry.FailsCheck]
  · exact and_congr_right fun _ => and_congr_right fun _ => byte_outside_iff _ _
  · simp [Entry.FailsCheck, isBare, kindRead, kindStatus, kindResync, or_assoc]
  · show _ ↔ ¬ _
    rw [← BitVec.toNat_inj]
    simp
    omega
  · have := e.failsCheck_number period before h
    omega

theorem Entry.failedCheck_none (h : e.failedCheck period before = none) (n : Nat) : ¬ e.FailsCheck period before n := fun hn =>
  (e.failedCheck_first period before).2 h n (e.failsCheck_number period before hn).1 hn

theorem Entry.failedCheck_some {r : Byte} (h : e.failedCheck period before = some r) :
    e.FailsCheck period before r.toNat ∧ ∀ n < r.toNat, ¬ e.FailsCheck period before n := by
  obtain ⟨-, hfails, hfirst⟩ := (e.failedCheck_first period before).1 r h
  exact ⟨hfails, fun n hn hf => hfirst n (e.failsCheck_number period before hf).1 hn hf⟩

/-- Checks 5 to 7 are about the station that goes with the kind. -/
theorem Entry.station_iff : (if e.kind = kindBroadcast then e.station = 63 else if e.kind = kindOpen then e.station = 0
      else 1 ≤ e.station.toNat ∧ e.station.toNat ≤ 62) ↔
    ¬ e.FailsCheck period before 5 ∧ ¬ e.FailsCheck period before 6 ∧ ¬ e.FailsCheck period before 7 := by
  simp only [Entry.FailsCheck]
  by_cases hb : e.kind = 6#8
  · simp [hb, kindBroadcast]
  · by_cases ho : e.kind = 16#8
    · have : e.station = 0#8 → e.station ≠ 63#8 := fun h => by rw [h]; decide
      simpa [ho, kindBroadcast, kindOpen] using this
    · have : e.station.toNat ≤ 62 → e.station ≠ 63#8 := fun h h63 => by rw [h63] at h; exact absurd h (by decide)
      simpa [hb, ho, kindBroadcast, kindOpen] using fun _ => this

/-- An entry that passes every check is in the ranges of section 3.2, after the entry before it (R39). -/
theorem Entry.passes_iff : (∀ n, ¬ e.FailsCheck period before n) ↔
    e.Valid period ∧ ∀ b, before = some b → b.toNat < e.offset.toNat := by
  have zero (h : Half) : h = 0 ↔ h.toNat = 0 := BitVec.toNat_inj.symm
  have kinds : (e.kind = 0 ∨ e.kind = 7 ∨ 16 < e.kind.toNat) ↔
      ¬ ((1 ≤ e.kind.toNat ∧ e.kind.toNat ≤ 6) ∨ (8 ≤ e.kind.toNat ∧ e.kind.toNat ≤ 16)) := by
    rw [← BitVec.toNat_inj, ← BitVec.toNat_inj]
    simp
    omega
  constructor
  · intro h
    refine ⟨⟨?_, not_not.mp (mt kinds.mpr (h 4)), ?_, Nat.not_lt.mp (h 8), ?_, ?_, ?_, ?_, ?_, not_not.mp (h 14), Nat.not_lt.mp (h 15),
      Nat.not_lt.mp (h 16), Nat.not_le.mp (h 17)⟩, fun b hb => Nat.not_le.mp fun hle => h 3 ⟨b, hb, hle⟩⟩
    · have h2 := h 2
      simp only [Entry.FailsCheck, zero] at h2
      omega
    · exact (e.station_iff period before).mpr ⟨h 5, h 6, h 7⟩
    · exact fun hb => not_not.mp fun hl => h 9 ⟨hb, hl⟩
    · exact or_iff_not_imp_right.mpr fun hany => Nat.not_lt.mp fun hl => h 10 ⟨hl, hany⟩
    · exact Nat.lt_succ_iff.mp (Nat.not_le.mp (h 11))
    · exact or_iff_not_imp_right.mpr fun hnone => Nat.not_lt.mp fun hl => h 12 ⟨hl, hnone⟩
    · exact Nat.pos_of_ne_zero fun hz => h 13 ((zero _).mpr hz)
  · rintro ⟨⟨hoffset, hkind, hstation, hrequest, hbare, hreply, himage, hmailbox, hreservation, hwindow, hretry, hdivider, hphase⟩,
      hrising⟩ n hf
    have stations := (e.station_iff period before).mp hstation
    obtain ⟨hlow, hhigh⟩ := e.failsCheck_number period before hf
    interval_cases n
    · simp only [Entry.FailsCheck, zero] at hf; omega
    · obtain ⟨b, hb, hle⟩ := hf; exact absurd hle (Nat.not_le.mpr (hrising b hb))
    · exact kinds.mp hf hkind
    · exact stations.1 hf
    · exact stations.2.1 hf
    · exact stations.2.2 hf
    · exact absurd hrequest (Nat.not_le.mpr hf)
    · exact hf.2 (hbare hf.1)
    · exact hreply.elim (Nat.not_le.mpr hf.1) hf.2
    · exact absurd hf (Nat.not_le.mpr (Nat.lt_succ_of_le himage))
    · exact hmailbox.elim (Nat.not_le.mpr hf.1) hf.2
    · exact absurd ((zero _).mp hf) (Nat.ne_of_gt hreservation)
    · exact hf hwindow
    · exact absurd hretry (Nat.not_le.mpr hf)
    · exact absurd hdivider (Nat.not_le.mpr hf)
    · exact absurd hphase (Nat.not_lt.mpr hf)

end Entries

/-! ## The first of an indexed list -/

/-- What stands before an index in the list of all indices is every index below it. -/
theorem mem_before_of_finRange {n : Nat} {before after : List (Fin n)} {i : Fin n} (h : List.finRange n = before ++ i :: after)
    (j : Fin n) : j ∈ before ↔ j.val < i.val := by
  have hsorted := List.pairwise_lt_finRange n
  rw [h, List.pairwise_append, List.pairwise_cons] at hsorted
  obtain ⟨-, ⟨hafter, -⟩, hbefore⟩ := hsorted
  refine ⟨fun hj => hbefore j hj i (.head _), fun hlt => ?_⟩
  have hj : j ∈ before ++ i :: after := h ▸ List.mem_finRange j
  rcases List.mem_append.mp hj with hj | hj
  · exact hj
  · rcases List.mem_cons.mp hj with rfl | hj
    · omega
    · have : i.val < j.val := hafter j hj
      omega

/-- The first index that gives an answer gives it, and none below it gives one. -/
theorem findSome_finRange {n : Nat} {f : Fin n → Option α} {a : α} (h : (List.finRange n).findSome? f = some a) :
    ∃ i, f i = some a ∧ ∀ j : Fin n, j.val < i.val → f j = none := by
  obtain ⟨before, i, after, hsplit, hi, hbefore⟩ := List.findSome?_eq_some_iff.mp h
  exact ⟨i, hi, fun j hj => hbefore j ((mem_before_of_finRange hsplit j).mpr hj)⟩

/-- The first index that meets a test meets it, and none below it does. -/
theorem find_finRange {n : Nat} {p : Fin n → Bool} {i : Fin n} (h : (List.finRange n).find? p = some i) :
    p i = true ∧ ∀ j : Fin n, j.val < i.val → p j = false := by
  obtain ⟨hi, before, after, hsplit, hbefore⟩ := List.find?_eq_some_iff_append.mp h
  exact ⟨hi, fun j hj => by simpa using hbefore j ((mem_before_of_finRange hsplit j).mpr hj)⟩

/-! ## A line's list (R39, R41) -/

section Lists

variable (t : SlotList) (period : Half) (l : Line)

/-- Every entry of the list passes its checks. -/
def SlotList.Passes : Prop :=
  ∀ i : Fin 32, i.val < t.count.toNat → ∀ n, ¬ t.entries[i].FailsCheck period (t.offsetBefore i) n

/-- The offset before an entry is that of the entry at the index before it. -/
theorem SlotList.offsetBefore_iff (j : Fin 32) (b : Half) :
    t.offsetBefore j = some b ↔ ∃ i : Fin 32, i.val + 1 = j.val ∧ t.entries[i].offset = b := by
  unfold SlotList.offsetBefore
  split
  · next h =>
    refine Option.some_inj.trans ⟨fun hb => ⟨⟨j.val - 1, by omega⟩, Nat.sub_add_cancel h, hb⟩, ?_⟩
    rintro ⟨i, hi, hb⟩
    rw [← hb]
    simp [← hi]
  · next h => exact ⟨nofun, fun ⟨i, hi, _⟩ => by omega⟩

/-- A list of at most 32 entries that pass their checks is valid, and no other. -/
theorem SlotList.valid_iff : t.Valid period ↔ t.count.toNat ≤ 32 ∧ t.Passes period := by
  have rising (j : Fin 32) : (∀ b, t.offsetBefore j = some b → b.toNat < t.entries[j].offset.toNat) ↔
      ∀ i : Fin 32, i.val + 1 = j.val → t.entries[i].offset.toNat < t.entries[j].offset.toNat := by
    simp only [SlotList.offsetBefore_iff]
    exact ⟨fun h i hi => h _ ⟨i, hi, rfl⟩, fun h b ⟨i, hi, hb⟩ => hb ▸ h i hi⟩
  unfold SlotList.Valid SlotList.Passes
  simp only [Entry.passes_iff, rising]
  exact and_congr_right fun _ =>
    ⟨fun ⟨hv, hr⟩ j hj => ⟨hv j hj, fun i hi => hr i j hi hj⟩,
      fun h => ⟨fun j hj => (h j hj).1, fun i j hi hj => (h j hj).2 i hi⟩⟩

/-- An entry's check answers its number, index and station. -/
theorem SlotList.checkEntry_eq (i : Fin 32) : t.checkEntry period l i =
    (t.entries[i].failedCheck period (t.offsetBefore i)).map fun r =>
      { line := l, reason := r, index := BitVec.ofNat 8 i.val, station := t.entries[i].station } := rfl

theorem SlotList.checkEntry_none {i : Fin 32} (h : t.checkEntry period l i = none) (n : Nat) :
    ¬ t.entries[i].FailsCheck period (t.offsetBefore i) n := by
  rw [SlotList.checkEntry_eq, Option.map_eq_none_iff] at h
  exact Entry.failedCheck_none _ _ _ h n

/-- A failure of an entry, and of none of its list before it, is the list's first. -/
theorem SlotList.checkEntry_first {i : Fin 32} {f : CheckFailure} (hcount : t.count.toNat ≤ 32) (hi : i.val < t.count.toNat)
    (h : t.checkEntry period l i = some f)
    (hbefore : ∀ j : Fin 32, j.val < i.val → ∀ n, ¬ t.entries[j].FailsCheck period (t.offsetBefore j) n) :
    f.line = l ∧ t.FirstFailure period f := by
  rw [SlotList.checkEntry_eq, Option.map_eq_some_iff] at h
  obtain ⟨r, hr, rfl⟩ := h
  obtain ⟨hfails, hfirst⟩ := Entry.failedCheck_some _ _ _ hr
  exact ⟨rfl, .inr ⟨hcount, i, hi, rfl, rfl, hfails, hfirst, hbefore⟩⟩

theorem SlotList.checkCount_none : t.checkCount l = none ↔ t.count.toNat ≤ 32 := by
  simp [SlotList.checkCount]

/-- The check of a list whose count is in range is that of its entries in turn. -/
theorem SlotList.check_entries (h : t.count.toNat ≤ 32) : t.check period l =
    (List.finRange 32).findSome? fun i => if i.val < t.count.toNat then t.checkEntry period l i else none := by
  rw [SlotList.check, (t.checkCount_none l).mpr h]

/-- A count above 32 is the first failure of its list (check 1). -/
theorem SlotList.check_count (h : 32 < t.count.toNat) :
    t.check period l = some { line := l, reason := 1, index := 255, station := 0 } := by
  rw [SlotList.check, SlotList.checkCount, if_pos h]

theorem SlotList.check_none : t.check period l = none ↔ t.Valid period := by
  rw [SlotList.valid_iff]
  rcases Nat.lt_or_ge 32 t.count.toNat with hcount | hcount
  · rw [t.check_count period l hcount]
    exact ⟨nofun, fun h => absurd h.1 (Nat.not_le.mpr hcount)⟩
  · rw [t.check_entries period l hcount, List.findSome?_eq_none_iff]
    simp only [List.mem_finRange, forall_true_left, ite_eq_right_iff, hcount, true_and]
    refine forall_congr' fun i => forall_congr' fun hi => ⟨t.checkEntry_none period l, fun h => ?_⟩
    cases hf : t.checkEntry period l i with
    | none => rfl
    | some f =>
      rw [SlotList.checkEntry_eq, Option.map_eq_some_iff] at hf
      obtain ⟨r, hr, -⟩ := hf
      exact absurd (Entry.failedCheck_some _ _ _ hr).1 (h _)

theorem SlotList.check_some {f : CheckFailure} (h : t.check period l = some f) : f.line = l ∧ t.FirstFailure period f := by
  rcases Nat.lt_or_ge 32 t.count.toNat with hcount | hcount
  · rw [t.check_count period l hcount] at h
    cases h
    exact ⟨rfl, .inl ⟨hcount, rfl, rfl, rfl⟩⟩
  · rw [t.check_entries period l hcount] at h
    obtain ⟨i, hi, hbefore⟩ := findSome_finRange h
    have hin : i.val < t.count.toNat := by
      by_contra hout
      rw [if_neg hout] at hi
      cases hi
    rw [if_pos hin] at hi
    refine t.checkEntry_first period l hcount hin hi fun j hj => t.checkEntry_none period l ?_
    rw [← hbefore j hj, if_pos (by omega)]

end Lists

/-! ## Both lists of a bank (R41) -/

theorem bankCheck_none (b : Bank) (period : Half) : bankCheck b period = none ↔ Bank.Valid b period := by
  unfold Bank.Valid
  rw [← b.a.check_none period .a, ← b.b.check_none period .b, bankCheck]
  cases b.a.check period .a <;> simp

/-- Settles O19, list by list. -/
theorem checkFindsTheFirstFailure : Obligations.CheckFindsTheFirstFailure := by
  unfold Obligations.CheckFindsTheFirstFailure
  intro b period
  refine ⟨bankCheck_none b period, fun f hf => ?_⟩
  unfold bankCheck at hf
  cases ha : b.a.check period .a with
  | some g =>
    rw [ha] at hf
    cases hf
    obtain ⟨hline, hfirst⟩ := b.a.check_some period .a ha
    rw [hline]
    exact ⟨hfirst, nofun⟩
  | none =>
    rw [ha] at hf
    obtain ⟨hline, hfirst⟩ := b.b.check_some period .b hf
    rw [hline]
    exact ⟨hfirst, fun _ => (b.a.check_none period .a).mp ha⟩

end Sys2Proof.Machine
end

section
/-! What a line's engine leaves besides its frame: the other line's reservation and every staging descriptor
(chapter 4, R52, R128, R143). -/

namespace Sys2Proof.Machine

/-- One line's reservation in the Event Queue, and the staging descriptors, which the host alone writes (R128, R143). -/
structure Besides where
  reserved : Bool
  staging : Two Descriptor

/-- What LineFrame does not speak of: the other line's reservation, and the staging descriptors of both. -/
def State.besides (s : State) (l : Line) : Besides :=
  { reserved := s.events.reserved.get (otherLine l), staging := ⟨s.acyclic.a.staging, s.acyclic.b.staging⟩ }

section Operations

variable (s : State) (l : Line)

/-! ## Updates -/

@[simp] theorem setEngine_besides (k : Line) (e : Engine) : (s.setEngine k e).besides l = s.besides l := rfl
@[simp] theorem setStation_besides (k : Line) (i : Fin 62) (r : Station) : (s.setStation k i r).besides l = s.besides l := rfl
@[simp] theorem withSchedule_besides (x : Schedule) : (s.withSchedule x).besides l = s.besides l := rfl
@[simp] theorem withPool_besides (x : Pool) : (s.withPool x).besides l = s.besides l := rfl
@[simp] theorem setBuffer_besides (b : Fin 72) (x : Buffer) : (s.setBuffer b x).besides l = s.besides l := rfl
@[simp] theorem setMailbox_besides (m : Fin 48) (x : Mailbox) : (s.setMailbox m x).besides l = s.besides l := rfl
@[simp] theorem giveBuffer_besides (b : Option (Fin 72)) : (s.giveBuffer b).besides l = s.besides l := rfl
@[simp] theorem withChoices_besides (n : Nat) : (s.withChoices n).besides l = s.besides l := rfl

@[simp] theorem appendEvent_besides (e : Event) : (s.appendEvent e).besides l = s.besides l := by
  simp [State.besides, State.appendEvent]

/-- A line's appends fill its own reservation at most (R145). -/
theorem foldl_apply_reserved (as : List Append) (h : ∀ m e, Append.reserved m e ∈ as → m = l) : ∀ q : EventQueue,
    (as.foldl EventQueue.apply q).reserved.get (otherLine l) = q.reserved.get (otherLine l) := by
  induction as with
  | nil => exact fun _ => rfl
  | cons a as ih =>
    intro q
    rw [List.foldl_cons, ih fun m e hm => h m e (.tail _ hm)]
    cases a with
    | plain e => rw [EventQueue.apply, EventQueue.append_reserved]
    | reserved m e =>
      obtain rfl := h m e (.head _)
      exact Two.get_set_other _ _ (otherLine_ne m)

theorem appendAll_besides {as : List Append} (h : ∀ m e, Append.reserved m e ∈ as → m = l) :
    (s.appendAll as).besides l = s.besides l :=
  congrArg (Besides.mk · _) (foldl_apply_reserved l as h s.events)

@[simp] theorem appendPlain_besides (es : List Event) : (s.appendAll (es.map .plain)).besides l = s.besides l :=
  appendAll_besides s l fun m e h => by simp at h

/-! ## Attempts and slots -/

@[simp] theorem takeBuffer_besides (w : TakeFor) : (takeBuffer l w s).besides l = s.besides l := by
  unfold takeBuffer
  split
  · rfl
  · dsimp only
    split
    · rfl
    · rw [appendEvent_besides, withPool_besides]

@[simp] theorem beginAttempt_besides : (beginAttempt l s).besides l = s.besides l := by
  unfold beginAttempt; split <;> rfl

@[simp] theorem leaveSlot_besides (o : Outcome) : (leaveSlot l o s).besides l = s.besides l := by
  unfold leaveSlot; split <;> rfl

@[simp] theorem returnHeld_besides : (returnHeld l s).besides l = s.besides l := rfl

@[simp] theorem writeHeader_besides (b : Fin 72) (a : Attempt) (v : Byte) : (writeHeader l b a v s).besides l = s.besides l := by
  unfold writeHeader; split <;> rfl

@[simp] theorem publishHeld_besides (c : Slot) (a : Attempt) : (publishHeld l c a s).besides l = s.besides l := by
  unfold publishHeld
  split
  · exact writeHeader_besides s l _ a _
  · rfl

@[simp] theorem applyReport_besides (x : Byte) (p : Report) : (applyReport l x p s).1.besides l = s.besides l := by
  unfold applyReport; split <;> rfl

@[simp] theorem reportSlot_besides (x : Byte) (p : Report) : (reportSlot l x p s).besides l = s.besides l := by
  rw [reportSlot, appendPlain_besides, applyReport_besides]

@[simp] theorem reportAttempt_besides (x : Byte) (o : Outcome) : (reportAttempt l x o s).besides l = s.besides l := by
  unfold reportAttempt; split <;> rfl

@[simp] theorem finishSlot_besides (o : Outcome) (a : Option Attempt) : (finishSlot l o a s).besides l = s.besides l := by
  unfold finishSlot
  split
  · rfl
  · dsimp only
    rw [leaveSlot_besides]
    split <;> split <;> simp

/-- The reserved append of a completion, at any place among the station's events (R136, log 5). -/
@[simp] theorem anyPlace_besides (d : Event) (es : List Event) :
    ((anyPlace s (Append.reserved l d) (es.map Append.plain)).2.appendAll
      (anyPlace s (Append.reserved l d) (es.map Append.plain)).1).besides l = s.besides l := by
  obtain ⟨front, back, c, hcut, -, hplace⟩ := anyPlace_spec s (Append.reserved l d) (es.map Append.plain)
  rw [hplace]
  refine appendAll_besides (s.withChoices c) l fun m e hm => ?_
  have hplain : Append.reserved m e ∉ front ++ back := by rw [← hcut]; simp
  simp only [List.mem_append, List.mem_cons, not_or] at hm hplain
  rcases hm with hm | hm | hm
  · exact absurd hm hplain.1
  · cases hm; rfl
  · exact absurd hm hplain.2

@[simp] theorem completeRequest_besides (o : Outcome) (a : Option Attempt) : (completeRequest l o a s).besides l = s.besides l := by
  unfold completeRequest
  split
  · rfl
  · dsimp only
    rw [leaveRequest, setEngine_besides, anyPlace_besides]
    split
    · split <;> simp
    · rw [applyReport_besides]
      split <;> simp

@[simp] theorem endAttempt_besides (o : Outcome) : (endAttempt l o s).besides l = s.besides l := by
  unfold endAttempt
  split
  · rfl
  · have reported (a : Attempt) : (if a.kind = kindBroadcast then s else reportAttempt l a.station o s).besides l = s.besides l := by
      split <;> simp
    dsimp only
    split
    · split <;> simp [reported]
    · simp [reported]

/-! ## The walk -/

@[simp] theorem readNext_besides : (readNext l s).besides l = s.besides l := by
  obtain ⟨x, hx, -⟩ := readNext_only l s
  rw [hx, setEngine_besides]

@[simp] theorem sendSlot_besides (c : Slot) : (sendSlot l c s).besides l = s.besides l := by
  have snapshot : (takeSnapshot l c s).besides l = s.besides l := by unfold takeSnapshot; split <;> rfl
  rw [sendSlot, beginAttempt_besides, ← snapshot, takeForSlot]
  split <;> simp

@[simp] theorem startStation_besides (c : Slot) : (startStation l c s).besides l = s.besides l := by
  unfold startStation
  split
  · exact sendSlot_besides s l c
  · dsimp only
    split <;> simp

@[simp] theorem beginSlot_besides (n : Notice) (r : ReadEntry) : (beginSlot l n r s).besides l = s.besides l := by
  unfold beginSlot
  dsimp only
  split
  · simp
  · split
    · simp
    · split <;> simp

@[simp] theorem walkOn_besides (k : Nat) (s : State) : (walkOn l k s).besides l = s.besides l := by
  induction k generalizing s with
  | zero => rfl
  | succ k ih =>
    rw [walkOn]
    split
    · split <;> simp [ih]
    · simp

@[simp] theorem slotBegin_besides : (slotBegin l s).besides l = s.besides l := by
  unfold slotBegin
  dsimp only
  split <;> simp

@[simp] theorem openSlotEnd_besides : (openSlotEnd l s).besides l = s.besides l := by
  unfold openSlotEnd
  split <;> simp

@[simp] theorem afterGap_besides : (afterGap l s).besides l = s.besides l := by
  unfold afterGap
  split
  · split <;> simp
  · simp

@[simp] theorem retryDecision_besides (o : Outcome) : (retryDecision l o s).besides l = s.besides l := by
  unfold retryDecision
  split
  · simp
  · split <;> simp

@[simp] theorem frameGapEnd_besides : (frameGapEnd l s).besides l = s.besides l := by
  unfold frameGapEnd
  dsimp only
  split
  · split <;> simp
  · rfl

/-- The head request leaves its queue and holds its line's reservation; the staging descriptor stays (R128, R133). -/
@[simp] theorem startHead_besides (d : Descriptor) (c : Slot) : (startHead l d c s).besides l = s.besides l := by
  cases l <;> rfl

@[simp] theorem startAcyclic_besides : (startAcyclic l s).besides l = s.besides l := by
  unfold startAcyclic
  split
  · rfl
  · dsimp only
    split
    · rw [beginAttempt_besides, takeForRequest]
      split <;> simp
    · simp

/-! ## Traffic -/

@[simp] theorem characterSent_besides : (characterSent l s).besides l = s.besides l := by
  have sent (a : Attempt) : (frameSent l a s).besides l = s.besides l := by
    unfold frameSent
    split <;> simp
  unfold characterSent
  dsimp only
  split
  · rfl
  · split
    · rfl
    · split
      · rfl
      · split
        · simp
        · split
          · rfl
          · exact sent _

@[simp] theorem startEdge_besides : (startEdge l s).besides l = s.besides l := by
  unfold startEdge
  dsimp only
  split <;> rfl

@[simp] theorem rxReturned_besides : (rxReturned l s).besides l = s.besides l := by
  unfold rxReturned
  dsimp only
  split <;> rfl

@[simp] theorem applyJudgement_besides (a : Attempt) (j : Judgement) : (applyJudgement l a j s).besides l = s.besides l := by
  have stored (x : Option (Nat × Byte)) (u : State) : (storePayload l x u).besides l = u.besides l := by
    unfold storePayload
    split <;> rfl
  unfold applyJudgement
  split
  · simp [stored]
  · rfl
  · simp

@[simp] theorem awaitCharacter_besides (p : RxProgress) (c : RxChar) (a : Attempt) :
    (awaitCharacter l p c a s).besides l = s.besides l := by
  unfold awaitCharacter
  split
  · unfold headFound
    dsimp only
    split <;> simp
  · split <;> simp [countStray]

@[simp] theorem handleCharacter_besides (p : RxProgress) (c : RxChar) : (handleCharacter l p c s).besides l = s.besides l := by
  unfold handleCharacter
  split
  · rfl
  · rfl
  · unfold echoCharacter
    split <;> rfl
  · simp
  · unfold replyCharacter
    split <;> simp
  · rfl

@[simp] theorem completeCharacter_besides (c : RxChar) : (completeCharacter l c s).besides l = s.besides l := by
  unfold completeCharacter
  split <;> simp

@[simp] theorem falseStart_besides : (falseStart l s).besides l = s.besides l := by
  unfold falseStart
  dsimp only
  split
  · rfl
  · split
    · split <;> simp
    · rfl

@[simp] theorem windowExpiry_besides : (windowExpiry l s).besides l = s.besides l := by
  unfold windowExpiry
  dsimp only
  split
  · split <;> simp
  · rfl

@[simp] theorem charGapExpiry_besides : (charGapExpiry l s).besides l = s.besides l := by
  unfold charGapExpiry
  dsimp only
  split
  · split <;> rfl
  · rfl

@[simp] theorem endQuiet_besides : (endQuiet l s).besides l = s.besides l := by
  unfold endQuiet
  dsimp only
  split <;> simp

end Operations

/-! ## The rows of a line's traffic -/

/-- A line's operation stays within the line's frame, and leaves what lies besides it. -/
def StaysOnLine (l : Line) (f : State → State) : Prop := ∀ u, LineFrame l u (f u) ∧ (f u).besides l = u.besides l

/-- A row of a line's traffic is an event that stays on its line. -/
theorem lineRow {c : Instr} {l : Line} (h : lineOf c = some l) :
    ∃ f : State → State, (∀ s, exec c s = .next (s.event f)) ∧ StaysOnLine l f := by
  cases c <;> cases h
  case slotBegin => exact ⟨slotBegin l, fun _ => rfl, fun u => ⟨slotBegin_lineFrame l u, slotBegin_besides u l⟩⟩
  case characterTransmitted =>
    exact ⟨characterSent l, fun _ => rfl, fun u => ⟨characterSent_lineFrame l u, characterSent_besides u l⟩⟩
  case receivedCharacter byte head framing =>
    exact ⟨fun t => completeCharacter l { byte := byte, head := head, framing := framing } (startEdge l t), fun _ => rfl,
      fun u => ⟨(startEdge_lineFrame l u).trans (completeCharacter_lineFrame l _ _), by simp⟩⟩
  case falseStart => exact ⟨falseStart l, fun _ => rfl, fun u => ⟨falseStart_lineFrame l u, falseStart_besides u l⟩⟩
  case replyWindowExpiry => exact ⟨windowExpiry l, fun _ => rfl, fun u => ⟨windowExpiry_lineFrame l u, windowExpiry_besides u l⟩⟩
  case characterGapExpiry =>
    exact ⟨charGapExpiry l, fun _ => rfl, fun u => ⟨charGapExpiry_lineFrame l u, charGapExpiry_besides u l⟩⟩
  case quietIdleExpiry =>
    refine ⟨fun t => if (t.engine l).rx.prev = some false then t else endQuiet l t, fun _ => rfl, fun u => ?_⟩
    dsimp only
    split
    · exact ⟨.refl l u, rfl⟩
    · exact ⟨endQuiet_lineFrame l u, endQuiet_besides u l⟩
  case quietLimitExpiry => exact ⟨endQuiet l, fun _ => rfl, fun u => ⟨endQuiet_lineFrame l u, endQuiet_besides u l⟩⟩
  case frameGapEnd => exact ⟨frameGapEnd l, fun _ => rfl, fun u => ⟨frameGapEnd_lineFrame l u, frameGapEnd_besides u l⟩⟩
  case openSlotEnd => exact ⟨openSlotEnd l, fun _ => rfl, fun u => ⟨openSlotEnd_lineFrame l u, openSlotEnd_besides u l⟩⟩
  case acyclicStart => exact ⟨startAcyclic l, fun _ => rfl, fun u => ⟨startAcyclic_lineFrame l u, startAcyclic_besides u l⟩⟩
  case startEdge => exact ⟨startEdge l, fun _ => rfl, fun u => ⟨startEdge_lineFrame l u, startEdge_besides u l⟩⟩
  case rxReturnedTo1 =>
    refine ⟨rxReturned l, fun _ => rfl, fun u => ⟨?_, rxReturned_besides u l⟩⟩
    unfold rxReturned
    dsimp only
    split
    · exact .refl l u
    · exact setEngine_lineFrame l u _

/-- What a row of a line's traffic leaves as it was. -/
theorem lineRow_frame {c : Instr} {l : Line} {s t : State} (h : lineOf c = some l) (ht : exec c s = .next t) :
    LineFrame l s t ∧ t.besides l = s.besides l := by
  obtain ⟨f, hrun, hframe⟩ := lineRow h
  rw [hrun s] at ht
  cases ht
  cases hr : s.inReset with
  | true => rw [State.event_held hr]; exact ⟨.refl l s, rfl⟩
  | false => rw [State.event_run hr]; exact hframe s

/-- Settles O59. -/
theorem trafficOnOneLineLeavesTheOther : Obligations.TrafficOnOneLineLeavesTheOther := by
  unfold Obligations.TrafficOnOneLineLeavesTheOther
  intro c l s t hc ht
  obtain ⟨hframe, hbesides⟩ := lineRow_frame hc ht
  have hother := otherLine_ne l
  have hstaging : ∀ m, (t.acyclic.get m).staging = (s.acyclic.get m).staging := by
    have both := congrArg Besides.staging hbesides
    intro m
    cases m
    · exact congrArg Two.a both
    · exact congrArg Two.b both
  exact ⟨hframe.engine _ hother, hframe.station _ hother, hframe.acyclic _ hother, hframe.results _ hother,
    congrArg Besides.reserved hbesides, hframe.schedule, hframe.timer, hframe.images, hframe.host, hstaging l⟩

end Sys2Proof.Machine
end

section
/-! The Schedule Store: its commands and the ends of checks and copies, and the legality that every step keeps (chapter 3). -/

namespace Sys2Proof.Machine

/-! ## The pending bank (R32, R33) -/

section Pending

variable (s : Schedule) (b : Bank)

@[simp] theorem Schedule.withPending_pendingBank : (s.withPending b).pendingBank = b := by
  cases h : s.active <;> simp [Schedule.withPending, Schedule.pendingBank, h]

@[simp] theorem Schedule.withPending_activeBank : (s.withPending b).activeBank = s.activeBank := (s.withPending_kept b).activeBank

/-- Replacing the pending bank touches the banks only. -/
theorem Schedule.withPending_only :
    s.withPending b = { s with bank0 := (s.withPending b).bank0, bank1 := (s.withPending b).bank1 } := by
  unfold Schedule.withPending; split <;> rfl

theorem Schedule.pendingShielded_iff : s.pendingShielded = true ↔ s.changeover ≠ .none ∨ s.copy.isSome = true := by
  simp [Schedule.pendingShielded]

end Pending

/-! ## CHANGEOVER, COPY_ACTIVE and ABORT_CHANGEOVER (R40, R46, R47) -/

section Commands

variable {s : State} {code : Byte} {f : Schedule → Except CmdStatus Schedule}

/-- A command of the store that is taken changes the store and is answered. -/
theorem scheduleAccess_ok {x : Schedule} (hr : s.inReset = false) (h : f s.schedule = .ok x) :
    commandAccess code (scheduleCommand f) s = { s with schedule := x, host := s.host.accepted code } :=
  commandAccess_ok (t := (s.withHost { s.host with data := none }).withSchedule x) hr (by simp [scheduleCommand, h])

theorem scheduleAccess_error {r : CmdStatus} (hr : s.inReset = false) (h : f s.schedule = .error r) :
    commandAccess code (scheduleCommand f) s = s.refused code r :=
  commandAccess_error hr (by simp [scheduleCommand, h])

theorem Schedule.startCheck_ok {x : Schedule} (h : ¬ x.pendingShielded = true) :
    x.startCheck = .ok { x with changeover := .checking, checkPos := some { line := .a, done := 0 }, age := 0 } := if_neg h

theorem Schedule.startCopy_ok {x : Schedule} (h : ¬ x.pendingShielded = true) :
    x.startCopy = .ok { x with copy := some 0, age := 0 } := if_neg h

/-- Settles O18. -/
theorem changeoverCommandsFollowTheTable : Obligations.ChangeoverCommandsFollowTheTable := by
  unfold Obligations.ChangeoverCommandsFollowTheTable
  intro s hr
  refine ⟨fun hc hcopy => ?_, fun hlocked => ?_, fun hc => ?_, fun hc => ?_, fun hc => ?_⟩
  · have free : ¬ s.schedule.pendingShielded = true := by rw [Schedule.pendingShielded_iff]; simp [hc, hcopy]
    exact ⟨congrArg _ (scheduleAccess_ok hr (Schedule.startCheck_ok free)),
      congrArg _ (scheduleAccess_ok hr (Schedule.startCopy_ok free))⟩
  · have shielded := s.schedule.pendingShielded_iff.mpr hlocked
    exact ⟨congrArg _ (scheduleAccess_error hr (if_pos shielded)), congrArg _ (scheduleAccess_error hr (if_pos shielded))⟩
  · exact congrArg _ (scheduleAccess_ok hr (by simp only [Schedule.abort, hc]))
  · exact congrArg _ (scheduleAccess_ok hr (by simp only [Schedule.abort, hc]))
  · exact congrArg _ (scheduleAccess_error hr (by simp only [Schedule.abort, hc]))

end Commands

/-! ## The ends of a check and of a copy (R42, R43, R47) -/

section Ends

variable {s : State}

theorem endCheck_idle (h : s.schedule.changeover ≠ .checking) : endCheck s = s := if_neg h

/-- A check that finds no failure arms the changeover (R43). -/
theorem endCheck_armed (h : s.schedule.changeover = .checking) (hv : Bank.Valid s.schedule.pendingBank s.timer.period) :
    endCheck s = { s with schedule := { s.schedule with changeover := .armed, checkPos := none } } := by
  rw [endCheck, if_pos h, (bankCheck_none ..).mpr hv]
  rfl

/-- A check that finds a failure refuses the changeover, and reports it (R42). -/
theorem endCheck_refused {f : CheckFailure} (h : s.schedule.changeover = .checking)
    (hf : bankCheck s.schedule.pendingBank s.timer.period = some f) :
    endCheck s = { s with
      schedule := { s.schedule with changeover := .none, checkPos := none, lastSwapped := false }
      events := s.events.append
        { kind := .changeoverRefused, line := some f.line, station := f.station, code := f.reason,
          cycle := s.timer.cycleCount, entryIndex := f.index } } := by
  rw [endCheck, if_pos h, hf]
  rfl

theorem endCopy_idle (h : s.schedule.copy = none) : endCopy s = s := if_neg (by simp [h])

/-- The end of a copy makes the banks equal, and reports it (R47). -/
theorem endCopy_running (h : s.schedule.copy.isSome = true) :
    endCopy s = { s with
      schedule := { s.schedule.withPending s.schedule.activeBank with copy := none }
      events := s.events.append { kind := .copyDone, cycle := s.timer.cycleCount } } := if_pos h

/-- Settles O20. -/
theorem checksAndCopiesEnd : Obligations.ChecksAndCopiesEnd := by
  unfold Obligations.ChecksAndCopiesEnd
  intro s hr
  rw [exec_changeoverCheckEnd hr, exec_copyComplete hr]
  refine ⟨fun hc => congrArg _ (endCheck_idle hc), fun hc hv => congrArg _ (endCheck_armed hc hv), fun hc hv => ?_,
    fun hcopy => congrArg _ (endCopy_idle hcopy), fun hcopy => ⟨_, congrArg _ (endCopy_running hcopy), ?_, ?_, ?_, rfl⟩⟩
  · obtain ⟨f, hf⟩ := Option.ne_none_iff_exists'.mp (mt (bankCheck_none ..).mp hv)
    exact ⟨f, hf, congrArg _ (endCheck_refused hc hf)⟩
  · exact s.schedule.withPending_pendingBank _
  · exact s.schedule.withPending_activeBank _
  · dsimp only
    rw [s.schedule.withPending_only s.schedule.activeBank]

end Ends

end Sys2Proof.Machine
end

section
/-! Every step keeps the schedule legal: the active bank, and an armed pending bank, valid against the period in force (R39, R43). -/

namespace Sys2Proof.Machine

/-! ## What legality rests on -/

/-- A schedule that was legal is legal. -/
def StoreKept (s t : State) : Prop := s.ScheduleLegal → t.ScheduleLegal

/-- All that the legality of a schedule rests on is as it was: the period, the banks, the changeover, the check position and the copy. -/
structure StoreFrame (s t : State) : Prop where
  period : t.timer.period = s.timer.period
  schedule : t.schedule = { s.schedule with
    results := t.schedule.results, changeoversLatch := t.schedule.changeoversLatch, age := t.schedule.age }

theorem StoreFrame.refl (s : State) : StoreFrame s s := ⟨rfl, rfl⟩

theorem StoreFrame.trans {s t u : State} (h : StoreFrame s t) (k : StoreFrame t u) : StoreFrame s u :=
  ⟨k.period.trans h.period, by rw [k.schedule, h.schedule]⟩

theorem OwedFrame.storeFrame {s t : State} (h : OwedFrame s t) : StoreFrame s t := ⟨by rw [h.timer], by rw [h.schedule]⟩

theorem LineFrame.storeFrame {l : Line} {s t : State} (h : LineFrame l s t) : StoreFrame s t := h.owedFrame.storeFrame

theorem StoreKept.refl (s : State) : StoreKept s s := id

theorem StoreKept.trans {s t u : State} (h : StoreKept s t) (k : StoreKept t u) : StoreKept s u := k ∘ h

theorem StoreFrame.kept {s t : State} (h : StoreFrame s t) : StoreKept s t := by
  unfold StoreKept State.ScheduleLegal
  rw [h.period, h.schedule]
  exact id

/-- With no changeover armed, a schedule is legal that keeps a valid active bank, holds a check position in CHECKING only, and has no copy
beside a check. -/
theorem scheduleLegal_unarmed {t : State} (hbank : Bank.Valid t.schedule.activeBank t.timer.period)
    (harmed : t.schedule.changeover ≠ .armed) (hcheck : t.schedule.checkPos.isSome = true ↔ t.schedule.changeover = .checking)
    (hcopy : t.schedule.copy.isSome = true → t.schedule.changeover = .none) : t.ScheduleLegal :=
  ⟨hbank, fun h => absurd h harmed, hcheck, hcopy⟩

/-! ## The store's own operations -/

section Store

variable {s : State}

/-- While the pending bank is not shielded it may be anything. -/
theorem withPending_storeKept (b : Bank) (n : Option Nat) (h : s.schedule.changeover = .none) :
    StoreKept s (s.withSchedule { s.schedule.withPending b with copy := n }) := fun ⟨hbank, _, hcheck, _⟩ => by
  have only := s.schedule.withPending_only b
  have hchangeover : (s.schedule.withPending b).changeover = s.schedule.changeover := by rw [only]
  have hpos : (s.schedule.withPending b).checkPos = s.schedule.checkPos := by rw [only]
  refine scheduleLegal_unarmed ?_ ?_ ?_ fun _ => hchangeover.trans h
  · show Bank.Valid (s.schedule.withPending b).activeBank _
    rw [s.schedule.withPending_activeBank]
    exact hbank
  · rw [State.withSchedule_schedule, hchangeover, h]
    nofun
  · rw [State.withSchedule_schedule, hchangeover, hpos]
    exact hcheck

theorem endCheck_kept (s : State) : StoreKept s (endCheck s) := fun ⟨hbank, harmed, hcheck, hcopy⟩ => by
  by_cases hc : s.schedule.changeover = .checking
  · have uncopied : ¬ s.schedule.copy.isSome = true := fun h => by simp [hcopy h] at hc
    by_cases hv : Bank.Valid s.schedule.pendingBank s.timer.period
    · rw [endCheck_armed hc hv]
      exact ⟨hbank, fun _ => hv, by simp, fun h => absurd h uncopied⟩
    · obtain ⟨f, hf⟩ := Option.ne_none_iff_exists'.mp (mt (bankCheck_none ..).mp hv)
      rw [endCheck_refused hc hf]
      exact scheduleLegal_unarmed hbank (by simp) (by simp) fun _ => rfl
  · rw [endCheck_idle hc]
    exact ⟨hbank, harmed, hcheck, hcopy⟩

theorem endCopy_kept (s : State) : StoreKept s (endCopy s) := fun h => by
  cases hcopy : s.schedule.copy with
  | none => rw [endCopy_idle hcopy]; exact h
  | some k =>
    obtain ⟨-, -, -, hfree⟩ := id h
    have running : s.schedule.copy.isSome = true := by rw [hcopy]; rfl
    rw [endCopy_running running]
    exact withPending_storeKept s.schedule.activeBank none (hfree running) h

/-- A running copy moves bytes into the pending bank, which no changeover holds (R33, R47). -/
theorem copyProgress_kept (s : State) : StoreKept s (copyProgress s) := fun h => by
  unfold copyProgress
  split
  · next running =>
    obtain ⟨-, -, -, hfree⟩ := id h
    unfold Schedule.copyOn
    split
    · exact h
    · exact withPending_storeKept _ _ (hfree running) h
  · exact h

theorem checkMove_kept (s : State) : StoreKept s (checkMove s) := fun h => by
  unfold checkMove
  split
  · exact h
  · next p hp =>
    have stands (q : CheckPos) : (s.checkingAt (some q)).ScheduleLegal := by
      obtain ⟨hbank, harmed, hcheck, hcopy⟩ := id h
      exact ⟨hbank, harmed, ⟨fun _ => hcheck.mp (by rw [hp]; rfl), fun _ => rfl⟩, hcopy⟩
    extract_lets t failed
    by_cases hf : failed = true
    · rw [if_pos hf]; exact endCheck_kept s h
    · rw [if_neg hf]
      split
      · exact stands _
      · split
        · exact stands _
        · exact endCheck_kept s h

theorem checkMoves_kept (n : Nat) : ∀ s, StoreKept s (checkMoves n s) := by
  induction n with
  | zero => exact StoreKept.refl
  | succ n ih => exact fun s => (checkMove_kept s).trans (ih _)

theorem storeAct_kept (s : State) : StoreKept s (storeAct s) := by
  have drawn : StoreKept s s.drawn := StoreFrame.kept ⟨rfl, rfl⟩
  unfold storeAct
  split
  · dsimp only
    split
    · exact drawn.trans (endCheck_kept _)
    · exact drawn.trans (checkMoves_kept _ _)
  · split
    · dsimp only
      split
      · exact drawn.trans (endCopy_kept _)
      · split
        · exact drawn.trans (endCopy_kept _)
        · exact drawn
    · exact .refl s

/-! ## Commands of the store -/

theorem startCheck_legal {x : Schedule} (h : s.schedule.startCheck = .ok x) : StoreKept s (s.withSchedule x) := by
  unfold Schedule.startCheck at h
  split at h <;> cases h
  next free =>
  rw [Schedule.pendingShielded_iff, not_or, not_not] at free
  exact fun ⟨hbank, _⟩ => scheduleLegal_unarmed hbank (by simp) (by simp) fun hcopy => absurd hcopy free.2

theorem startCopy_legal {x : Schedule} (h : s.schedule.startCopy = .ok x) : StoreKept s (s.withSchedule x) := by
  unfold Schedule.startCopy at h
  split at h <;> cases h
  next free =>
  rw [Schedule.pendingShielded_iff, not_or, not_not] at free
  exact fun ⟨hbank, harmed, hcheck, _⟩ => ⟨hbank, harmed, hcheck, fun _ => free.1⟩

theorem abort_legal {x : Schedule} (h : s.schedule.abort = .ok x) : StoreKept s (s.withSchedule x) := by
  unfold Schedule.abort at h
  split at h <;> cases h
  · exact fun ⟨hbank, _⟩ => scheduleLegal_unarmed hbank (by simp) (by simp) fun _ => rfl
  · next hc =>
    rintro ⟨hbank, -, hcheck, -⟩
    exact scheduleLegal_unarmed hbank (by simp) (by simpa [hc] using hcheck) fun _ => rfl

end Store

/-! ## The timer -/

section Timing

variable {s : State}

/-- A timer of the same period. -/
theorem withTimer_storeFrame {x : Timer} (h : x.period = s.timer.period) : StoreFrame s (s.withTimer x) := ⟨h, rfl⟩

/-- A cycle begin swaps banks only when the pending one was armed, and so valid (R43, R44). -/
theorem CycleBegun.kept {b : Timer} {own : List Event} {t : State} (h : CycleBegun s b own t) (hp : b.period = s.timer.period) :
    StoreKept s t := by
  obtain ⟨htimer, -, hsch, -⟩ := h
  have period : t.timer.period = s.timer.period := by rw [htimer]; exact hp
  by_cases ha : s.schedule.changeover = .armed
  · rw [if_pos ha] at hsch
    rintro ⟨-, harmed, hcheck, -⟩
    have swapped : t.schedule.activeBank = s.schedule.pendingBank := by
      rw [hsch]; cases hact : s.schedule.active <;> simp [Schedule.activeBank, Schedule.pendingBank, hact]
    refine scheduleLegal_unarmed ?_ (by rw [hsch]; simp) ?_ fun _ => by rw [hsch]
    · rw [swapped, period]; exact harmed ha
    · rw [hsch]; simpa [ha] using hcheck
  · rw [if_neg ha] at hsch
    exact StoreFrame.kept ⟨period, by rw [hsch]⟩

theorem cycleBegin_kept {b : Timer} (own : Option EventKind) (hc : b.cycleCount = s.timer.cycleCount)
    (hp : b.period = s.timer.period) : StoreKept s (cycleBegin own (s.withTimer b)) := (cycleBegin_begun own s b hc).1.kept hp

theorem stopBoundary_kept (s : State) : StoreKept s (stopBoundary s) := by
  obtain ⟨htimer, hsch, -⟩ : CyclesEnded s s.timer (stopBoundary s) := stopBoundary_ended s s.timer
  exact StoreFrame.kept ⟨by rw [htimer], by rw [hsch]⟩

theorem endCycle_kept (sync : SyncState) (own : Option EventKind) (s : State) : StoreKept s (endCycle sync own s) := by
  unfold endCycle
  split
  · exact cycleBegin_kept own rfl rfl
  · exact stopBoundary_kept s
  · exact stopBoundary_kept s
  · exact .refl s

theorem ownBoundary_kept (s : State) : StoreKept s (ownBoundary s) := by
  unfold ownBoundary
  split <;> exact endCycle_kept _ _ s

theorem completeTick_kept (s : State) : StoreKept s (completeTick s) := by
  unfold completeTick
  split
  · split
    · exact ownBoundary_kept s
    · exact (withTimer_storeFrame rfl).kept
  · exact .refl s

theorem syncEdge_kept (s : State) : StoreKept s (syncEdge s) := by
  unfold syncEdge
  extract_lets t s1
  have seen : StoreKept s s1 := (withTimer_storeFrame rfl).kept
  split
  · split
    · exact seen
    · split
      · exact seen
      · exact seen.trans (cycleBegin_kept none rfl rfl)
      · split
        · exact seen.trans (endCycle_kept _ _ s1)
        · exact seen.trans (withTimer_storeFrame rfl).kept
      · exact seen.trans (endCycle_kept _ _ s1)
  · exact .refl s

theorem settle_kept (s : State) : StoreKept s (settle s) := (settle_owedFrame s).storeFrame.kept

theorem startCycles_kept {t : State} (h : startCycles s = .ok t) : StoreKept s t := by
  unfold startCycles at h
  split at h <;> cases h
  · exact cycleBegin_kept none rfl rfl
  · exact (withTimer_storeFrame rfl).kept
  · exact (withTimer_storeFrame rfl).kept

theorem stopCycles_kept {t : State} (h : stopCycles s = .ok t) : StoreKept s t := by
  unfold stopCycles at h
  split at h
  · split at h <;> cases h <;> exact (withTimer_storeFrame rfl).kept
  · cases h; exact (withTimer_storeFrame rfl).kept
  · cases h; exact .refl _
  · cases h

theorem singleCycle_kept {t : State} (h : singleCycle s = .ok t) : StoreKept s t := by
  unfold singleCycle at h
  split at h <;> cases h
  exact cycleBegin_kept none rfl rfl

/-- A write of a setting that is not the period. -/
theorem settingWrite_kept {taken : Bool} {f : Timer → Timer} (h : (f s.timer).period = s.timer.period) :
    StoreKept s (settingWrite taken f s) := by
  unfold settingWrite
  split
  · exact (withTimer_storeFrame h).kept
  · exact StoreFrame.kept ⟨rfl, rfl⟩

/-- A bank stays valid at another period that its offsets lie below (R16, conditions 4 and 5). -/
theorem Bank.Valid.at_period {b : Bank} {old new : Half} (h : Bank.Valid b old)
    (hbelow : ∀ (l : Line) (i : Fin 32), i.val < (b.get l).count.toNat → (b.get l).entries[i].offset.toNat < new.toNat) :
    Bank.Valid b new := by
  have line (t : SlotList) (hv : t.Valid old) (hl : ∀ i : Fin 32, i.val < t.count.toNat → t.entries[i].offset.toNat < new.toNat) :
      t.Valid new := by
    obtain ⟨hcount, hentries, hrising⟩ := hv
    refine ⟨hcount, fun i hi => ?_, hrising⟩
    obtain ⟨⟨hpos, -⟩, hrest⟩ := hentries i hi
    exact ⟨⟨hpos, hl i hi⟩, hrest⟩
  exact ⟨line _ h.1 (hbelow .a), line _ h.2 (hbelow .b)⟩

/-- A period write is taken only when the active bank, and an armed pending bank, stay valid (R16, R39, R43). -/
theorem periodWrite_kept (candidate : Half) :
    StoreKept s (settingWrite (periodFits s candidate) (fun t => { t with period := candidate }) s) := by
  unfold settingWrite
  split
  · next hfits =>
    obtain ⟨-, -, -, hactive, hpending, -⟩ := (periodFits_iff ..).mp hfits
    exact fun ⟨hbank, harmed, hcheck, hcopy⟩ =>
      ⟨hbank.at_period hactive, fun ha => (harmed ha).at_period (hpending ha), hcheck, hcopy⟩
  · exact StoreFrame.kept ⟨rfl, rfl⟩

end Timing

/-! ## Accesses, events and commands -/

section Rows

variable {s : State}

theorem access_storeKept {f : State → State} (h : ∀ u, StoreKept u (f u)) : StoreKept s (s.access f) := by
  have quiet : StoreKept s (s.withHost { s.host with data := none }) := StoreFrame.kept ⟨rfl, rfl⟩
  unfold State.access
  split
  · exact .refl s
  · exact quiet.trans (h _)

theorem event_storeKept {f : State → State} (h : ∀ u, StoreKept u (f u)) : StoreKept s (s.event f) := by
  unfold State.event
  split
  · exact .refl s
  · exact h s

theorem commandAccess_storeKept {command : State → Except CmdStatus State} (code : Byte)
    (h : ∀ u t, command u = .ok t → StoreKept u t) : StoreKept s (commandAccess code command s) :=
  access_storeKept fun u => by
    have answered (t : State) (x : HostPort) : StoreKept t (t.withHost x) := StoreFrame.kept ⟨rfl, rfl⟩
    unfold State.give
    split
    · next t ht => exact (h u t ht).trans (answered t _)
    · exact answered u _

theorem scheduleCommand_storeKept {f : Schedule → Except CmdStatus Schedule}
    (h : ∀ (u : State) x, f u.schedule = .ok x → StoreKept u (u.withSchedule x)) (u t : State) (ht : scheduleCommand f u = .ok t) :
    StoreKept u t := by
  unfold scheduleCommand at ht
  split at ht <;> cases ht
  next x hx => exact h u x hx

/-- A command of another block leaves the store and the timer alone. -/
def StoreFree (command : State → Except CmdStatus State) : Prop := ∀ s t, command s = .ok t → StoreFrame s t

theorem StoreFree.kept {command : State → Except CmdStatus State} (code : Byte) (h : StoreFree command) :
    StoreKept s (commandAccess code command s) := commandAccess_storeKept code fun u t ht => (h u t ht).kept

theorem lineCommand_storeFree {f : Line → State → Except CmdStatus State} (h : ∀ l s t, f l s = .ok t → LineFrame l s t) :
    StoreFree (lineCommand f) := by
  intro s t ht
  unfold lineCommand at ht
  split at ht
  · exact (h _ s t ht).storeFrame
  · cases ht

theorem stationCommand_storeFree (f : Station → Except CmdStatus Station) : StoreFree (stationCommand f) := by
  intro s t ht
  unfold stationCommand at ht
  split at ht
  · split at ht <;> cases ht
    exact ⟨rfl, rfl⟩
  · cases ht

theorem imageCommand_storeFree (f : Fin 64 → ImageStore → ImageStore) : StoreFree (imageCommand f) := by
  intro s t ht
  unfold imageCommand at ht
  split at ht <;> cases ht
  exact ⟨rfl, rfl⟩

theorem mailboxCommand_storeFree {f : Fin 48 → Mailbox → State → Except CmdStatus State} (h : ∀ i m, StoreFree (f i m)) :
    StoreFree (mailboxCommand f) := by
  intro s t ht
  unfold mailboxCommand at ht
  split at ht
  · exact h _ _ s t ht
  · cases ht

theorem claimMailbox_storeFree (i : Fin 48) (m : Mailbox) : StoreFree (claimMailbox i m) := by
  intro s t ht
  unfold claimMailbox at ht
  split at ht <;> cases ht
  exact ⟨rfl, rfl⟩

theorem releaseMailbox_storeFree (i : Fin 48) (m : Mailbox) : StoreFree (releaseMailbox i m) := by
  intro s t ht
  unfold releaseMailbox at ht
  split at ht <;> cases ht <;> exact ⟨rfl, rfl⟩

theorem flushMailbox_storeFree (i : Fin 48) (m : Mailbox) : StoreFree (flushMailbox i m) := by
  intro s t ht
  cases ht; exact ⟨rfl, rfl⟩

theorem postRequest_storeFree : StoreFree postRequest := by
  intro s t ht
  unfold postRequest at ht
  dsimp only at ht
  split at ht
  · cases ht
  · split at ht
    · cases ht
    · split at ht <;> cases ht
      exact ⟨rfl, rfl⟩

theorem cancelRequest_storeFree : StoreFree cancelRequest := by
  intro s t ht
  unfold cancelRequest at ht
  dsimp only at ht
  split at ht
  · cases ht
  · split at ht
    · cases ht; exact ⟨rfl, rfl⟩
    · split at ht <;> cases ht

theorem popEvent_storeFree : StoreFree popEvent := by
  intro s t ht
  unfold popEvent at ht
  split at ht <;> cases ht
  exact ⟨rfl, rfl⟩

/-! ## The window and the registers -/

/-- A window read moves nothing of the store but a running copy (R33, R47). -/
theorem windowRead_storeKept (w : WinTarget) (s : State) : StoreKept s (windowRead w s).2 := by
  have record (id : RecordId) (bytes : List Byte) (k : Nat) : StoreKept s (readRecord id bytes k s).2 := by
    by_cases hk : k = 0
    · subst hk; exact StoreFrame.kept ⟨rfl, rfl⟩
    · rw [readRecord_later hk]; exact .refl s
  have claimed (m : Mailbox) (byte : Buffer → Byte) : StoreKept s (readClaimed m byte s).2 := by
    unfold readClaimed
    split <;> exact StoreFrame.kept ⟨rfl, rfl⟩
  cases w with
  | pendingEntry | pendingCount => exact copyProgress_kept s
  | result | station | mailboxPart | eventHeader => exact record _ _ _
  | mailboxHeader | mailboxPayload => exact claimed _ _
  | activeEntry | activeCount | staged | live | generation | marked | eventPayload | eventBufferHeader | staging | queueView
  | unmapped => exact StoreFrame.kept ⟨rfl, rfl⟩

/-- The pending bank is written only while it is not shielded (R33). -/
theorem windowWrite_storeKept (w : WinTarget) (v : Byte) (s : State) : StoreKept s (windowWrite w v s) := by
  have pending (f : Bank → Bank) : StoreKept s (writePending f s) := by
    unfold writePending
    split
    · exact StoreFrame.kept ⟨rfl, rfl⟩
    · next free =>
      rw [Schedule.pendingShielded_iff, not_or, not_not, Option.not_isSome_iff_eq_none] at free
      have := withPending_storeKept (f s.schedule.pendingBank) s.schedule.copy free.1
      rw [s.schedule.withPending_only] at this ⊢
      exact this
  cases w with
  | pendingEntry | pendingCount => rw [windowWrite]; exact pending _
  | _ => exact StoreFrame.kept ⟨rfl, rfl⟩

theorem readAtPointer_storeKept (s : State) : StoreKept s (readAtPointer s) :=
  (windowRead_storeKept _ s).trans (StoreFrame.kept ⟨rfl, rfl⟩)

theorem advancePointer_storeKept (s : State) : StoreKept s (advancePointer s) := StoreFrame.kept ⟨rfl, rfl⟩

theorem plainWrite_storeKept (offset : BitVec 6) (v : Byte) (s : State) : StoreKept s (plainWrite offset v s) := by
  unfold plainWrite
  split <;> exact StoreFrame.kept ⟨rfl, rfl⟩

/-! ## Every row -/

/-- The codes of CMD and the offsets of writes spell no traffic of a line. -/
theorem lineOf_ofCode {code : Byte} {c : Instr} (h : commandOfCode code = some c) : lineOf c = none := by
  unfold commandOfCode at h
  split at h <;> cases h <;> rfl

theorem lineOf_ofOffset {offset : BitVec 6} {v : Byte} {c : Instr} (h : ownRowOfWrite offset v = some c) : lineOf c = none := by
  have code : lineOf ((commandOfCode v).getD (.badCommand v)) = none := by
    cases hv : commandOfCode v with
    | none => rfl
    | some c => exact lineOf_ofCode hv
  have rows : (rowsOfWrites v).Forall fun p => lineOf p.2 = none := by simpa [rowsOfWrites, lineOf] using code
  exact List.forall_iff_forall_mem.mp rows _ ((ownRowOfWrite_iff offset v c).mp h)

/-- A row of the table keeps a legal schedule. -/
def RowKept (c : Instr) (s : State) : Prop := ∃ t, exec c s = .next t ∧ StoreKept s t

theorem rowKept_access {c : Instr} {f : State → State} (h : exec c s = .next (s.access f)) (k : ∀ u, StoreKept u (f u)) :
    RowKept c s := ⟨_, h, access_storeKept k⟩

/-- An access that has no part in the store, in either of the ways it can end. -/
theorem rowKept_frame {c : Instr} {f : State → State} (h : exec c s = .next (s.access f)) (k : ∀ u, StoreFrame u (f u)) :
    RowKept c s := rowKept_access h fun u => (k u).kept

theorem rowKept_event {c : Instr} {f : State → State} (h : exec c s = .next (s.event f)) (k : ∀ u, StoreKept u (f u)) :
    RowKept c s := ⟨_, h, event_storeKept k⟩

theorem rowKept_command {c : Instr} {code : Byte} {command : State → Except CmdStatus State}
    (h : exec c s = .next (commandAccess code command s)) (k : ∀ u t, command u = .ok t → StoreKept u t) : RowKept c s :=
  ⟨_, h, commandAccess_storeKept code k⟩

theorem rowKept_free {c : Instr} {code : Byte} {command : State → Except CmdStatus State}
    (h : exec c s = .next (commandAccess code command s)) (k : StoreFree command) : RowKept c s := ⟨_, h, k.kept code⟩

/-- A reset leaves the legal state it begins with (R165, R166). -/
theorem resetBlocks_legal {t : State} (h : t.schedule = Schedule.reset ∧ t.timer = Timer.reset) : t.ScheduleLegal := by
  unfold State.ScheduleLegal
  rw [h.1, h.2]
  exact State.reset_scheduleLegal

/-- A row that is the access its own name describes, beside the traffic of the lines. -/
theorem rowKept_wellFormed (c : Instr) (s : State) (h : c.wellFormed = true) (hl : lineOf c = none) : RowKept c s := by
  cases c with
  | cycleStart => exact rowKept_command rfl fun _ _ => startCycles_kept
  | cycleStop => exact rowKept_command rfl fun _ _ => stopCycles_kept
  | cycleSingle => exact rowKept_command rfl fun _ _ => singleCycle_kept
  | changeover => exact rowKept_command rfl (scheduleCommand_storeKept fun _ _ => startCheck_legal)
  | abortChangeover => exact rowKept_command rfl (scheduleCommand_storeKept fun _ _ => abort_legal)
  | copyActive => exact rowKept_command rfl (scheduleCommand_storeKept fun _ _ => startCopy_legal)
  | lineEnable => exact rowKept_free rfl (lineCommand_storeFree enableLine_lineFrame)
  | lineDisable => exact rowKept_free rfl (lineCommand_storeFree disableLine_lineFrame)
  | park | unpark | clearCounters => exact rowKept_free rfl (stationCommand_storeFree _)
  | publishImage | markImage => exact rowKept_free rfl (imageCommand_storeFree _)
  | unmarkAll => exact rowKept_free rfl fun _ _ ht => by cases ht; exact ⟨rfl, rfl⟩
  | claim => exact rowKept_free rfl (mailboxCommand_storeFree claimMailbox_storeFree)
  | release => exact rowKept_free rfl (mailboxCommand_storeFree releaseMailbox_storeFree)
  | flush => exact rowKept_free rfl (mailboxCommand_storeFree flushMailbox_storeFree)
  | post => exact rowKept_free rfl postRequest_storeFree
  | cancel => exact rowKept_free rfl cancelRequest_storeFree
  | pop => exact rowKept_free rfl popEvent_storeFree
  | softReset => exact rowKept_command rfl fun _ _ ht _ => by cases ht; exact resetBlocks_legal ⟨rfl, rfl⟩
  | badCommand code =>
    have hcode : commandOfCode code = none := by simpa [Instr.wellFormed] using h
    have run : exec (.badCommand code) s = badCode code s := by rw [exec, execBadCommand, hcode]
    exact rowKept_free (run.trans rfl) fun _ _ ht => by cases ht
  | cytModeWrite | cytPrescaleWrite | cytWindowWrite => exact rowKept_access rfl fun _ => settingWrite_kept rfl
  | cytPeriodHighWrite => exact rowKept_access rfl fun _ => periodWrite_kept _
  | divisorHighWrite => exact rowKept_frame rfl fun _ => by dsimp only; split <;> exact ⟨rfl, rfl⟩
  | lineSettingWrite | irqStatusWrite =>
    exact rowKept_frame rfl fun _ => by split <;> exact ⟨rfl, rfl⟩
  | cytPeriodLowWrite | divisorLowWrite | cytValueLowRead | cycleCountLowRead | schChangeoversLowRead | overrunCounterWrite
  | strayCounterWrite | poolMissesWrite | hostStatusWrite | irqEnableWrite => exact rowKept_frame rfl fun _ => ⟨rfl, rfl⟩
  | winDataRead => exact rowKept_access rfl fun u => (readAtPointer_storeKept u).trans (advancePointer_storeKept _)
  | winDataWrite v => exact rowKept_access rfl fun u => (windowWrite_storeKept _ v u).trans (advancePointer_storeKept _)
  | winPeekRead => exact rowKept_access rfl readAtPointer_storeKept
  | winPeekWrite v => exact rowKept_access rfl fun u => windowWrite_storeKept _ v u
  | registerWrite offset v =>
    have hrow : ownRowOfWrite offset v = none := by simpa [Instr.wellFormed] using h
    have run : exec (.registerWrite offset v) s = .next (s.access (plainWrite offset v)) := by rw [exec, execRegisterWrite, hrow]
    exact rowKept_access run (plainWrite_storeKept offset v)
  | pinReset | powerUp => exact ⟨_, rfl, fun _ => resetBlocks_legal ⟨rfl, rfl⟩⟩
  | resetRelease => exact ⟨_, rfl, StoreFrame.kept ⟨rfl, rfl⟩⟩
  | tick =>
    exact rowKept_event rfl fun u => by
      split
      · exact (settle_kept u).trans (completeTick_kept _)
      · exact .refl u
  | periodEnd | syncWindowExpiry =>
    exact rowKept_event rfl fun u => by
      split
      · exact (settle_kept u).trans (ownBoundary_kept _)
      · exact .refl u
  | syncFallingEdge => exact rowKept_event rfl syncEdge_kept
  | syncSeenHigh =>
    exact rowKept_event rfl fun u => by
      unfold syncHigh
      split
      · exact (withTimer_storeFrame rfl).kept
      · exact .refl u
  | changeoverCheckEnd => exact rowKept_event rfl endCheck_kept
  | copyComplete => exact rowKept_event rfl endCopy_kept
  | _ => cases hl

/-- Every row of the table, through the row it spells (log 16). -/
theorem rowKept (c : Instr) (s : State) : RowKept c s := by
  cases hl : lineOf c with
  | some l =>
    obtain ⟨f, hrun, hframe⟩ := lineRow hl
    exact rowKept_event (hrun s) fun u => (hframe u).1.storeFrame.kept
  | none =>
    by_cases hw : c.wellFormed = true
    · exact rowKept_wellFormed c s hw hl
    · have spelled {c' : Instr} (he : exec c s = exec c' s) (hc : c'.wellFormed = true) (hn : lineOf c' = none) : RowKept c s := by
        obtain ⟨t, ht, k⟩ := rowKept_wellFormed c' s hc hn
        exact ⟨t, he.trans ht, k⟩
      cases c <;> simp [Instr.wellFormed] at hw
      case badCommand code =>
        obtain ⟨c', hc⟩ := Option.ne_none_iff_exists'.mp hw
        exact spelled (exec_badCommand s hc) (wellFormed_ofCode hc).1 (lineOf_ofCode hc)
      case registerWrite offset v =>
        obtain ⟨c', hc⟩ := Option.ne_none_iff_exists'.mp hw
        exact spelled (exec_registerWrite s hc) (wellFormed_ofOffset hc).1 (lineOf_ofOffset hc)

end Rows

/-! ## Every period -/

theorem lineAct_storeFrame (l : Line) (s : State) : StoreFrame s (lineAct l s) := by
  have moment (u : State) : StoreFrame u (lineMoment l u) := (lineMoment_lineFrame l u).storeFrame
  have sample (u : State) : StoreFrame u (lineSample l u) := by
    rcases Nat.lt_or_ge (u.engine l).sampleClock ((u.engine l).divisor.toNat + 1) with h | h
    · rw [lineSample_notDue h]; exact .refl u
    · rw [lineSample_due h]
      have pin : StoreFrame u (u.sampled l (u.nextPin l)) := ⟨rfl, rfl⟩
      exact pin.trans (sampleAt_lineFrame _).storeFrame
  unfold lineAct
  refine StoreFrame.trans ?_ ((sample _).trans ((moment _).trans (moment _)))
  split
  · exact moment s
  · exact .refl s

/-- Each actor of a period. -/
theorem Actor.act_storeKept (a : Actor) (s : State) : StoreKept s (a.act s) := by
  unfold Actor.act
  split
  · cases a with
    | timer => exact completeTick_kept s
    | sync => exact syncEdge_kept s
    | line l => exact (lineAct_storeFrame l s).kept
    | store => exact storeAct_kept s
  · exact .refl s

theorem actors_storeKept (actors : List Actor) : ∀ s, StoreKept s (actors.foldl (fun u a => a.act u) s) := by
  induction actors with
  | nil => exact StoreKept.refl
  | cons a actors ih => exact fun s => (a.act_storeKept s).trans (ih _)

theorem clockPeriod_storeKept (s : State) : StoreKept s (clockPeriod s) := by
  unfold clockPeriod
  split
  · exact .refl s
  · obtain ⟨n, -, hdue, -⟩ := dueActors_cases (countAll (settleMoment s))
    have counted : StoreFrame (settleMoment s) (dueActors (countAll (settleMoment s))).2 := by
      rw [hdue, countAll_eq_later]; exact ⟨rfl, rfl⟩
    exact ((settleMoment_owedFrame s).storeFrame.trans counted).kept.trans (actors_storeKept _ _)

/-- Settles O22: a command keeps a legal schedule as its row does, and so does a period of the clock. -/
theorem scheduleStaysLegal : Obligations.ScheduleStaysLegal := by
  unfold Obligations.ScheduleStaysLegal
  intro s t hl ht
  cases hp : s.pending with
  | nil =>
    simp only [step, hp] at ht
    cases ht
    exact clockPeriod_storeKept s hl
  | cons c rest =>
    simp only [step, hp] at ht
    obtain ⟨t', ht', kept⟩ := rowKept c { s with pending := rest }
    obtain rfl : t' = t := Host.Outcome.next.inj (ht'.symm.trans ht)
    exact kept hl

end Sys2Proof.Machine
end

section
/-! Due entries, entry reads and budgets (R36 to R39). -/

namespace Sys2Proof.Machine

/-! ## Due entries (R36) -/

theorem Entry.dueIn_iff (e : Entry) (cycle : Half) : e.dueIn cycle = true ↔ cycle.toNat % 2 ^ e.divider.toNat = e.phase.toNat :=
  decide_eq_true_iff

/-- The pattern of an entry runs on across the wrap of the cycle count, which a divider of at most 7 divides. -/
theorem mod_divider_periodic (cycle : Half) {d : Nat} (h : d ≤ 7) :
    (cycle + BitVec.ofNat 16 (2 ^ d)).toNat % 2 ^ d = cycle.toNat % 2 ^ d := by
  have wrap : 2 ^ d ∣ 2 ^ 16 := Nat.pow_dvd_pow 2 (by omega)
  rw [BitVec.toNat_add, Nat.mod_mod_of_dvd _ wrap, BitVec.toNat_ofNat, Nat.add_mod, Nat.mod_mod_of_dvd _ wrap]
  simp

/-! ## The next due entry (R37, R38) -/

section Reads

variable {t : SlotList} {cycle : Half} {start : Nat} {i : Fin 32}

theorem SlotList.nextDue_some (h : t.nextDue cycle start = some i) :
    start ≤ i.val ∧ t.IsDue cycle i ∧ ∀ j : Fin 32, start ≤ j.val → j.val < i.val → ¬ t.IsDue cycle j := by
  obtain ⟨hi, hbefore⟩ := find_finRange h
  rw [Bool.and_eq_true, decide_eq_true_eq, t.dueAt_iff] at hi
  refine ⟨hi.1, hi.2, fun j hj hlt hdue => ?_⟩
  have := hbefore j hlt
  rw [(t.dueAt_iff cycle j).mpr hdue, decide_eq_true hj] at this
  cases this

theorem SlotList.nextDue_none (h : t.nextDue cycle start = none) (j : Fin 32) (hj : start ≤ j.val) : ¬ t.IsDue cycle j := by
  intro hdue
  have := List.find?_eq_none.mp h j (List.mem_finRange j)
  rw [(t.dueAt_iff cycle j).mpr hdue, decide_eq_true hj] at this
  exact this rfl

/-- The budget end is the offset of the next due entry, or the period when there is none (R37). -/
theorem SlotList.budgetEnd_cases (t : SlotList) (period cycle : Half) (i : Fin 32) :
    (∃ j : Fin 32, i.val < j.val ∧ t.IsDue cycle j ∧ t.budgetEnd period cycle i = t.entries[j].offset
      ∧ ∀ k : Fin 32, i.val < k.val → k.val < j.val → ¬ t.IsDue cycle k)
    ∨ (t.budgetEnd period cycle i = period ∧ ∀ j : Fin 32, i.val < j.val → ¬ t.IsDue cycle j) := by
  unfold SlotList.budgetEnd
  cases hn : t.nextDue cycle (i.val + 1) with
  | none => exact .inr ⟨rfl, t.nextDue_none hn⟩
  | some j =>
    obtain ⟨hlt, hdue, hbetween⟩ := SlotList.nextDue_some hn
    exact .inl ⟨j, hlt, hdue, rfl, hbetween⟩

/-- The offsets of a valid list rise (R39). -/
theorem SlotList.Valid.offset_lt {period : Half} (h : t.Valid period) {j : Fin 32} (hj : j.val < t.count.toNat) (hlt : i.val < j.val) :
    t.entries[i].offset.toNat < t.entries[j].offset.toNat := by
  obtain ⟨-, -, hrising⟩ := h
  obtain ⟨j, hj32⟩ := j
  induction j with
  | zero => exact absurd hlt (Nat.not_lt_zero _)
  | succ k ih =>
    have step := hrising ⟨k, Nat.lt_of_succ_lt hj32⟩ ⟨k + 1, hj32⟩ rfl hj
    rcases Nat.eq_or_lt_of_le (Nat.le_of_lt_succ hlt) with heq | hless
    · rw [show i = ⟨k, Nat.lt_of_succ_lt hj32⟩ from Fin.ext heq]
      exact step
    · exact (ih _ (Nat.lt_of_succ_lt hj) hless).trans step

/-- In a valid list every due entry has a budget of at least a tick (R39). -/
theorem SlotList.Valid.budget {period : Half} (h : t.Valid period) (hdue : t.IsDue cycle i) :
    t.entries[i].offset.toNat < (t.budgetEnd period cycle i).toNat := by
  rcases t.budgetEnd_cases period cycle i with ⟨j, hlt, hj, hend, -⟩ | ⟨hend, -⟩
  · rw [hend]; exact h.offset_lt hj.1 hlt
  · obtain ⟨-, hentries, -⟩ := h
    obtain ⟨⟨-, hbelow⟩, -⟩ := hentries i hdue.1
    rw [hend]; exact hbelow

/-- What an entry read of the store's present schedule answers (R38). -/
theorem Schedule.entryRead_eq {sch : Schedule} {n : Notice} (h : n.changeovers = sch.changeovers) (period : Half) (l : Line) (start : Nat) :
    sch.entryRead period l n start = ((sch.activeBank.get l).nextDue n.cycle start).map fun i =>
      { index := i, entry := (sch.activeBank.get l).entries[i], budgetEnd := (sch.activeBank.get l).budgetEnd period n.cycle i } :=
  if_pos h

/-- Settles O21. -/
theorem entryReadAnswersFirstDueAndBudget : Obligations.EntryReadAnswersFirstDueAndBudget := by
  unfold Obligations.EntryReadAnswersFirstDueAndBudget
  refine ⟨fun e cycle => ⟨e.dueIn_iff cycle, fun hd hp => ?_, fun hd => ?_⟩,
    fun sch period l n start => ⟨fun hne => if_neg hne, fun heq => ?_⟩⟩
  · rw [e.dueIn_iff, hd, hp]
    exact Nat.mod_one _
  · rw [Bool.eq_iff_iff, e.dueIn_iff, e.dueIn_iff, mod_divider_periodic cycle hd]
  · rw [Schedule.entryRead_eq heq]
    refine ⟨fun hnone => SlotList.nextDue_none (Option.map_eq_none_iff.mp hnone), fun r hr => ?_⟩
    obtain ⟨i, hi, rfl⟩ := Option.map_eq_some_iff.mp hr
    obtain ⟨hstart, hdue, hbefore⟩ := SlotList.nextDue_some hi
    exact ⟨hstart, hdue, rfl, hbefore, SlotList.budgetEnd_cases .., fun hv => hv.budget hdue⟩

end Reads

end Sys2Proof.Machine
end

section
/-! SLOT_BEGIN of an engine that keeps no entry, and of an entry that sends no traffic (R61 to R64, R84). -/

namespace Sys2Proof.Machine

section Waiting

variable {s : State} {l : Line}

theorem slotBegin_waiting (hw : (s.engine l).state = .wait) (hs : (s.engine l).slot = none) : slotBegin l s = walkOn l 33 s :=
  if_pos ⟨hw, hs⟩

/-- Outside WAIT and within a slot nothing begins (log 1). -/
theorem slotBegin_elsewhere (h : (s.engine l).state ≠ .wait ∨ (s.engine l).slot.isSome = true) : slotBegin l s = s := by
  refine if_neg fun ⟨hw, hs⟩ => ?_
  rcases h with h | h
  · exact h hw
  · rw [hs] at h; cases h

theorem slotBegin_notReached {r : ReadEntry} (hk : (s.engine l).next = some r) (h : s.timer.value.toNat < r.entry.offset.toNat) :
    slotBegin l s = s := by
  by_cases hw : (s.engine l).state = .wait ∧ (s.engine l).slot = none
  · rw [slotBegin_waiting hw.1 hw.2, walkOn_notReached 33 hk h]
  · exact if_neg hw

/-! ## The entry read (R61) -/

/-- The next due entry is read and kept. -/
theorem readNext_read {n : Notice} {r : ReadEntry} (hw : (s.engine l).state = .wait) (hs : (s.engine l).slot = none)
    (hk : (s.engine l).next = none) (hn : (s.engine l).notice = some n)
    (hr : s.schedule.entryRead s.timer.period l n (s.engine l).walk = some r) :
    readNext l s = s.setEngine l { s.engine l with next := some r } := by
  rw [readNext_answer hk, if_pos ⟨hw, hs⟩, hn, Option.bind_some, hr]

/-- A walk that reads an entry goes on as one that already keeps it. -/
theorem walkOn_read {u : State} {r : ReadEntry} (k : Nat) (hu : readNext l s = u) (hk : (u.engine l).next = some r) :
    walkOn l (k + 1) s = walkOn l (k + 1) u := by
  have kept : readNext l u = u := readNext_kept (by rw [hk]; nofun)
  rw [walkOn, walkOn, hu, kept]

/-- A waiting engine without a slot may keep an entry. -/
theorem Engine.Legal.keep {e : Engine} {n : Notice} (h : e.Legal) (hw : e.state = .wait) (hs : e.slot = none) (hn : e.notice = some n)
    (r : ReadEntry) : Engine.Legal { e with next := some r } := by
  have hdisabling : e.disabling = false := by
    cases hd : e.disabling with
    | false => rfl
    | true => simpa [hw] using (h.of_disabling hd).2
  obtain ⟨-, -, htx, hattempt, hslot, -, hrest⟩ := h
  exact ⟨fun hoff => by simp [hw] at hoff, fun hd => by simp [hdisabling] at hd, htx, hattempt, hslot,
    fun _ => ⟨hw, hs, by rw [hn]; rfl⟩, hrest⟩

/-- What SLOT_BEGIN does with no entry kept: it reads one, which waits for its offset or begins its slot (R61). -/
theorem slotBegin_reads {n : Notice} {r : ReadEntry} (hl : (s.engine l).Legal) (hw : (s.engine l).state = .wait)
    (hs : (s.engine l).slot = none) (hk : (s.engine l).next = none) (hn : (s.engine l).notice = some n)
    (hr : s.schedule.entryRead s.timer.period l n (s.engine l).walk = some r) :
    ∀ u, u = s.setEngine l { s.engine l with next := some r } →
      slotBegin l s = slotBegin l u ∧ (r.entry.offset.toNat ≤ s.timer.value.toNat → Reached u l n r) := by
  rintro u rfl
  generalize hu' : s.setEngine l { s.engine l with next := some r } = u
  have hu : u.engine l = { s.engine l with next := some r } := by rw [← hu', State.setEngine_same]
  have read : walkOn l 33 s = walkOn l 33 u := walkOn_read 32 ((readNext_read hw hs hk hn hr).trans hu') (by rw [hu])
  refine ⟨?_, fun hreached => ?_⟩
  · rw [slotBegin_waiting hw hs, slotBegin_waiting (s := u) (by rw [hu]; exact hw) (by rw [hu]; exact hs), read]
  · unfold Reached
    rw [hu]
    exact ⟨hl.keep hw hs hn r, hw, hs, hn, rfl, by rw [← hu']; exact hreached⟩

end Waiting

/-! ## Slots without traffic (R62 to R64, R84) -/

section Reached

variable {s : State} {l : Line} {n : Notice} {r : ReadEntry}

/-- The state in which the slot of a reached entry has begun (R61). -/
def entered (s : State) (l : Line) (n : Notice) (r : ReadEntry) : State :=
  s.setEngine l { (s.engine l).passed r with slot := some (slotOf s n r false 0) }

theorem entered_engine : (entered s l n r).engine l = { (s.engine l).passed r with slot := some (slotOf s n r false 0) } :=
  State.setEngine_same ..

theorem beginSlot_eq (l : Line) (n : Notice) (r : ReadEntry) (s : State) : beginSlot l n r s =
    if timeRemaining (entered s l n r) (slotOf s n r false 0) < r.entry.reservation.toNat then leaveSlot l .squeezed (entered s l n r)
    else if r.entry.kind = kindOpen then entered s l n r
    else if r.entry.kind = kindBroadcast then sendSlot l (slotOf s n r false 0) (entered s l n r)
    else startStation l (slotOf s n r false 0) (entered s l n r) := rfl

/-- The reservation of a slot that begins fits before the budget end, or it does not (R62). -/
theorem entered_fits (h : 1 ≤ r.entry.reservation.toNat) :
    timeRemaining (entered s l n r) (slotOf s n r false 0) < r.entry.reservation.toNat
      ↔ r.budgetEnd.toNat < s.timer.value.toNat + r.entry.reservation.toNat := by
  rw [← Nat.not_le, le_timeRemaining _ _ h]
  simp [slotOf, entered, State.setEngine]

theorem slotBegin_reached (h : Reached s l n r) : slotBegin l s = walkOn l 32 (beginSlot l n r s) := by
  obtain ⟨-, hw, hs, hn, hk, hreached⟩ := h
  rw [slotBegin_waiting hw hs, walkOn_reached 32 hn hk hreached]

/-- A slot that ends as it begins: its result is written, and the engine waits without it. -/
theorem leaveSlot_entered {u : State} (o : Outcome) (h : Reached s l n r) (hu : u.engine l = (entered s l n r).engine l)
    (hsch : u.schedule = s.schedule) :
    leaveSlot l o u = { u.setEngine l ((s.engine l).passed r) with
      schedule := s.schedule.writeResult l r.index n.changeovers ((slotOf s n r false 0).result o 0) } := by
  obtain ⟨hl, -, hs, -⟩ := h
  obtain ⟨-, -, hsnapshot, -⟩ := hl.of_noSlot hs
  have hslot : (u.engine l).slot = some (slotOf s n r false 0) := by rw [hu, entered_engine]
  have hgeneration : (u.engine l).generation = 0 := by
    rw [hu, entered_engine]
    simp [Engine.generation, Engine.passed, hsnapshot]
  have hengine : { u.engine l with slot := none, snapshot := none } = (s.engine l).passed r := by
    rw [hu, entered_engine, Engine.passed, ← hs, ← hsnapshot]
  rw [leaveSlot_slot o hslot, hgeneration, hengine, hsch]
  rfl

/-- From the end of a slot that sent nothing the walk goes on in the same step (R61, log 12). -/
theorem goesOn_passed {u : State} (hr : s.inReset = false) (h : Reached s l n r) (hu : u.engine l = (s.engine l).passed r)
    (hru : u.inReset = false) (hend : beginSlot l n r s = u) : GoesOn (.slotBegin l) s l u := by
  have begun := slotBegin_reached h
  obtain ⟨-, hw, hs, -⟩ := h
  have hnext : (u.engine l).next = none := by rw [hu]; rfl
  have hwalk : 33 ≤ (u.engine l).walk + 32 := by rw [hu]; show 33 ≤ r.index.val + 1 + 32; omega
  have walk : slotBegin l s = walkOn l 32 u := by rw [begun, hend]
  unfold GoesOn
  rw [exec_slotBegin hr, exec_slotBegin hru, walk]
  refine ⟨?_, fun hfinished => congrArg _ (walkOn_finished 32 hnext hfinished)⟩
  rw [slotBegin_waiting (s := u) (by rw [hu]; exact hw) (by rw [hu]; exact hs), walkOn_rounds l 32 u hnext hwalk]

theorem beginSlot_squeezed (h : Reached s l n r) (hlate : r.budgetEnd.toNat < s.timer.value.toNat + r.entry.reservation.toNat)
    (hres : 1 ≤ r.entry.reservation.toNat) :
    beginSlot l n r s = { s.setEngine l ((s.engine l).passed r) with
      schedule := s.schedule.writeResult l r.index n.changeovers ((slotOf s n r false 0).result .squeezed 0) } := by
  rw [beginSlot_eq, if_pos ((entered_fits hres).mpr hlate), leaveSlot_entered .squeezed h rfl rfl, entered, State.setEngine_setEngine]

/-- The slot-start read of a station entry that has its time (R62, R84). -/
theorem beginSlot_station (hfits : s.timer.value.toNat + r.entry.reservation.toNat ≤ r.budgetEnd.toNat)
    (hres : 1 ≤ r.entry.reservation.toNat) (hb : r.entry.kind ≠ kindBroadcast) (ho : r.entry.kind ≠ kindOpen) :
    beginSlot l n r s = startStation l (slotOf s n r false 0) (entered s l n r) := by
  rw [beginSlot_eq, if_neg (by rw [entered_fits hres]; omega), if_neg ho, if_neg hb]

/-- A slot whose station is not to be sent to ends SKIPPED, with the record as the slot-start read leaves it (R84). -/
theorem startStation_skipped {i : Fin 62} {x : Station} (h : Reached s l n r) (hi : stationIx r.entry.station = some i)
    (hx : (s.station l i).startRead (s.engine l).probeInterval = (x, .skip)) :
    startStation l (slotOf s n r false 0) (entered s l n r) = { (s.setEngine l ((s.engine l).passed r)).setStation l i x with
      schedule := s.schedule.writeResult l r.index n.changeovers ((slotOf s n r false 0).result .skipped 0) } := by
  have read : ((entered s l n r).station l i).startRead ((entered s l n r).engine l).probeInterval = (x, .skip) := by
    rw [entered_engine]; exact hx
  have hix : stationIx (slotOf s n r false 0).entry.station = some i := hi
  unfold startStation
  rw [hix]
  dsimp only
  rw [read]
  dsimp only
  rw [leaveSlot_entered (u := (entered s l n r).setStation l i x) .skipped h rfl rfl, State.setEngine_setStation, entered,
    State.setEngine_setEngine]

theorem Station.startRead_parked {x : Station} (interval : Byte) (h : x.health = .parked) : x.startRead interval = (x, .skip) := by
  simp only [Station.startRead, h]

/-- Between probes the countdown of an OFFLINE station falls by one (R84). -/
theorem Station.startRead_offline {x : Station} (interval : Byte) (h : x.health = .offline) (hp : x.probe ≠ 1) :
    x.startRead interval = ({ x with probe := x.probe - 1 }, .skip) := by
  have : ¬ x.probe - 1 = 0 := fun h0 => hp (by bv_omega)
  simp only [Station.startRead, h, if_neg this]

end Reached

/-- Settles O29, by the entry kept and the way its slot begins. -/
theorem slotBeginWithoutTraffic : Obligations.SlotBeginWithoutTraffic := by
  unfold Obligations.SlotBeginWithoutTraffic
  refine ⟨fun s l hr hl hw hs hk => ⟨fun hfinished => ?_, fun n r hn hread => ?_⟩, fun s l n r hr h => ?_, fun s l hr => ?_⟩
  · rw [exec_slotBegin hr, slotBegin_waiting hw hs, walkOn_finished 33 hk hfinished]
  · obtain ⟨hsame, hreached⟩ := slotBegin_reads hl hw hs hk hn hread _ rfl
    rw [exec_slotBegin hr, hsame]
    exact ⟨fun hearly => congrArg _ (slotBegin_notReached (by rw [State.setEngine_same]) hearly),
      fun hlate => ⟨hreached hlate, (exec_slotBegin (s := s.setEngine l _) hr l).symm⟩⟩
  · refine ⟨fun ho hfits hres => ?_, fun hlate hres => ?_, fun i hi hb ho hfits hres => ⟨fun hp => ?_, fun hoff hp => ?_⟩⟩
    · have begun : beginSlot l n r s = entered s l n r := by
        rw [beginSlot_eq, if_neg (by rw [entered_fits hres]; omega), if_pos ho]
      rw [exec_slotBegin hr, slotBegin_reached h, begun, walkOn_inSlot 32]
      · rfl
      · rw [entered_engine]; rfl
      · rw [entered_engine]; nofun
    · exact goesOn_passed hr h (State.setEngine_same s l _) hr (beginSlot_squeezed h hlate hres)
    · refine goesOn_passed hr h (State.setEngine_same s l _) hr ?_
      rw [beginSlot_station hfits hres hb ho, startStation_skipped h hi (Station.startRead_parked _ hp), State.setEngine_setStation_self]
    · refine goesOn_passed hr h (State.setEngine_same s l _) hr ?_
      rw [beginSlot_station hfits hres hb ho, startStation_skipped h hi (Station.startRead_offline _ hoff hp)]
  · rw [exec_slotBegin hr]
    exact ⟨fun h => congrArg _ (slotBegin_elsewhere h), fun r hk h => congrArg _ (slotBegin_notReached hk h)⟩

end Sys2Proof.Machine
end

section
/-! Slots write their results, and a whole reply judged OK or REFUSED ends its slot (R63, R64, R72, R74 to R76, R87, R101). -/

namespace Sys2Proof.Machine

/-! ## Results (R50, R76) -/

section Results

variable (sch : Schedule) (l : Line) (i : Fin 32) {changeovers : Half} (r : SlotResult)

/-- A result that is a present schedule's reaches its own record (R50). -/
theorem Schedule.writeResult_present (h : changeovers = sch.changeovers) :
    sch.writeResult l i changeovers r = { sch with results := sch.results.set l (setAt (sch.results.get l) i r) } := if_pos h

/-- A result of a schedule swapped out is discarded (R50). -/
theorem Schedule.writeResult_past (h : changeovers ≠ sch.changeovers) : sch.writeResult l i changeovers r = sch := if_neg h

end Results

theorem slotsWriteTheirResults : SlotsWriteTheirResults := by
  refine ⟨fun c o generation => ⟨rfl, rfl, rfl, rfl, rfl, rfl, rfl, rfl, rfl, fun h => if_pos h, fun h => ?_, beq_iff_eq⟩,
    fun e => ⟨fun h => ?_, fun n h => ?_⟩, fun sch l i changeovers r => ⟨sch.writeResult_past l i r, fun h => ?_⟩⟩
  · exact if_neg (by rw [h]; nofun)
  · rw [Engine.generation, h]; rfl
  · rw [Engine.generation, h]; rfl
  · rw [sch.writeResult_present l i r h]
    dsimp only
    rw [Two.get_set_same, Two.get_set_other _ _ (otherLine_ne l)]
    exact ⟨setAt_same .., fun j hj => setAt_other _ r hj, rfl, rfl⟩

/-! ## The buffer of a slot that ends (R74, R101, R109, R110) -/

/-- What the end of a slot does with the buffer its engine holds: the pool and the mailboxes after it. -/
def BufferSettled (s : State) (l : Line) (o : Outcome) (c : Slot) (a : Attempt) (r : Reply) (arrival : Capture) (pool : Pool)
    (mailboxes : Vector Mailbox 48) : Prop :=
  ((s.engine l).held = none → pool = s.pool ∧ mailboxes = s.mailboxes)
  ∧ ∀ b, (s.engine l).held = some b →
    (o = .refused ∨ mailboxArg c.entry.mailbox = none →
      pool = { s.pool with free := s.pool.free ++ [b], episode := false } ∧ mailboxes = s.mailboxes)
    ∧ ∀ m, o = .ok → mailboxArg c.entry.mailbox = some m →
      mailboxes = setAt s.mailboxes m (s.mailboxes[m].publish b).1
      ∧ pool.free = s.pool.free ++ (s.mailboxes[m].publish b).2.toList
      ∧ pool.misses = s.pool.misses
      ∧ pool.episode = (s.pool.episode && (s.mailboxes[m].publish b).2.isNone)
      ∧ pool.buffers = setAt s.pool.buffers b { s.pool.buffers[b] with
          line := l, station := a.station, kind := a.kind, nibble := r.nibble, seqBit := r.seqBit, length := r.length,
          cycle := arrival.cycle, arrival := arrival.value, label := c.entry.label }

/-- A line lets go of its buffer, with the pool and the mailboxes as they then are. -/
def State.letGo (s : State) (l : Line) (pool : Pool) (mailboxes : Vector Mailbox 48) : State :=
  ((s.withPool pool).withMailboxes mailboxes).setEngine l { s.engine l with held := none }

section Buffer

variable {s : State} {l : Line} {c : Slot} {a : Attempt}

/-- A buffer that is not published goes back to the pool (R75). -/
theorem returnHeld_letGo {b : Fin 72} (h : (s.engine l).held = some b) :
    returnHeld l s = s.letGo l { s.pool with free := s.pool.free ++ [b], episode := false } s.mailboxes := by
  rw [returnHeld, h, State.giveBuffer_eq, Option.isNone_some, Bool.and_false]
  rfl

theorem returnHeld_empty (h : (s.engine l).held = none) : returnHeld l s = s.letGo l s.pool s.mailboxes := by
  rw [returnHeld, h]; rfl

/-- A buffer whose entry names no mailbox, or no buffer at all, is returned. -/
theorem publishHeld_returned (h : (s.engine l).held = none ∨ mailboxArg c.entry.mailbox = none) :
    publishHeld l c a s = returnHeld l s := by
  unfold publishHeld
  split
  · next hb hm => rcases h with h | h <;> simp_all
  · rfl

theorem publishHeld_published {b : Fin 72} {m : Fin 48} {r : Reply} {arrival : Capture} (h : (s.engine l).held = some b)
    (hm : mailboxArg c.entry.mailbox = some m) (hr : a.reply = some r) (ha : a.arrival = some arrival) :
    publishHeld l c a s = s.letGo l
      { s.pool with
        buffers := setAt s.pool.buffers b (s.pool.buffers[b].withHeader l a r arrival c.entry.label)
        free := s.pool.free ++ (s.mailboxes[m].publish b).2.toList
        episode := s.pool.episode && (s.mailboxes[m].publish b).2.isNone }
      (setAt s.mailboxes m (s.mailboxes[m].publish b).1) := by
  simp only [publishHeld, h, hm]
  rw [writeHeader_kept c.entry.label s hr ha, publishInto_eq]
  rfl

/-- The buffer of a slot that ends OK or REFUSED is published or returned (R74, R75). -/
theorem endSlot_buffer {r : Reply} {arrival : Capture} {o : Outcome} (ho : o = .ok ∨ o = .refused) (hr : a.reply = some r)
    (ha : a.arrival = some arrival) :
    ∃ pool mailboxes, BufferSettled s l o c a r arrival pool mailboxes
      ∧ (if o = .ok then publishHeld l c a s else returnHeld l s) = s.letGo l pool mailboxes := by
  have returned (h : (s.engine l).held = none ∨ mailboxArg c.entry.mailbox = none) :
      (if o = .ok then publishHeld l c a s else returnHeld l s) = returnHeld l s := by
    rw [publishHeld_returned h, ite_self]
  cases hheld : (s.engine l).held with
  | none =>
    refine ⟨s.pool, s.mailboxes, ⟨fun _ => ⟨rfl, rfl⟩, fun b hb => by rw [hheld] at hb; cases hb⟩, ?_⟩
    rw [returned (.inl hheld), returnHeld_empty hheld]
  | some b =>
    have held {p : Fin 72 → Prop} (hp : p b) (b' : Fin 72) (hb' : some b = some b') : p b' := Option.some.inj hb' ▸ hp
    unfold BufferSettled
    rw [hheld]
    by_cases hp : o = .ok ∧ mailboxArg c.entry.mailbox ≠ none
    · obtain ⟨rfl, hne⟩ := hp
      obtain ⟨m, hm⟩ := Option.ne_none_iff_exists'.mp hne
      refine ⟨_, _, ⟨nofun, held ⟨fun h => h.elim nofun fun h => absurd h hne, fun m' _ hm' => ?_⟩⟩,
        (if_pos rfl).trans (publishHeld_published hheld hm hr ha)⟩
      obtain rfl : m = m' := Option.some.inj (hm.symm.trans hm')
      exact ⟨rfl, rfl, rfl, rfl, rfl⟩
    · have back : (if o = .ok then publishHeld l c a s else returnHeld l s) = returnHeld l s := by
        by_cases hok : o = .ok
        · exact returned (.inr (not_not.mp fun hne => hp ⟨hok, hne⟩))
        · exact if_neg hok
      exact ⟨_, _, ⟨nofun, held ⟨fun _ => ⟨rfl, rfl⟩, fun m hok hm => absurd ⟨hok, by rw [hm]; nofun⟩ hp⟩⟩,
        back.trans (returnHeld_letGo hheld)⟩

end Buffer

/-! ## The end of the slot (R72, R75, R76, R87) -/

section EndOfSlot

variable {s : State} {l : Line} {c : Slot} {a : Attempt} {r : Reply}

/-- A report to a station with a record reaches the record, and its events are appended in turn (R87). -/
theorem reportSlot_record {address : Byte} {i : Fin 62} (p : Report) (h : stationIx address = some i) (u : State) :
    let record := (u.station l i).report p (u.engine l).failThreshold (u.engine l).probeInterval
    reportSlot l address p u = (u.setStation l i record).withEvents
      ((stationEvents l address (u.engine l).mask (u.station l i) record p).foldl EventQueue.append u.events) := by
  simp only [reportSlot, applyReport, h, State.appendAll, foldl_apply_plain]
  rfl

/-- The end of a slot of a station whose reply was judged OK or REFUSED. -/
theorem finishSlot_judged {o : Outcome} (ho : o = .ok ∨ o = .refused) (hc : (s.engine l).slot = some c)
    (hk : c.kindSent ≠ kindBroadcast) (hr : a.reply = some r) :
    finishSlot l o (some a) s = leaveSlot l o (reportSlot l c.entry.station (slotReport c o (some r.nibble))
      (if o = .ok then publishHeld l c a s else returnHeld l s)) := by
  have report : c.report o (some a) = slotReport c o (some r.nibble) := by rw [Slot.report, finalNibble_kept ho hr]; rfl
  rcases ho with rfl | rfl <;> simp only [finishSlot, hc, hk, if_false, report] <;> rfl

/-- A legal engine's attempt for a slot is to the slot's station, with the kind that the slot sends (R67). -/
theorem Engine.Legal.station_of_slot {e : Engine} (h : e.Legal) (ha : e.attempt = some a) (hq : e.request = none)
    (hc : e.slot = some c) : a.station = c.entry.station := by
  obtain ⟨x, hx, hs, -⟩ := h.exchange ha
  simp only [Engine.exchange, hq, hc, Option.map_some, Option.some.injEq] at hx
  rw [hs, ← hx]; rfl

/-- A whole reply judged OK or REFUSED ends its attempt and its slot (R70, R72). -/
theorem exec_receivedCharacter_judged {x : RxChar} {o : Outcome} {place : EdgePlace} {captured : Capture} (hreset : s.inReset = false)
    (hs : (s.engine l).state = .receive) (ha : (s.engine l).attempt = some a) (hr : a.reply = some r)
    (hq : (s.engine l).request = none) (hrec : Receives s l place captured) (hj : judgeNext a r x = .whole o r)
    (ho : o = .ok ∨ o = .refused) :
    exec (.receivedCharacter l x.byte x.head x.framing) s = .next (finishSlot l o (some a) (s.setEngine l
      { (s.engine l).received x.framing with state := .gap, attempt := none, tx := none, elapsed := 0, failed := none })) := by
  obtain ⟨p, -, -, hexec⟩ := exec_receivedCharacter_handled hreset (by simp [hs]) hrec x
  have kept : { a with reply := some r } = a := by rw [← hr]
  rw [hexec, handleCharacter_receive p x (by rw [State.setEngine_same]; exact hs) (by rw [State.setEngine_same]; exact ha) hr, hj,
    applyJudgement, kept, endAttempt_good (by rw [State.setEngine_same]) ho]
  simp only [State.setEngine_same, State.setEngine_setEngine]
  have unserved : ¬ ((s.engine l).received x.framing).request.isSome = true := by
    show ¬ (s.engine l).request.isSome = true
    rw [hq]; nofun
  rw [if_neg unserved]

end EndOfSlot

/-- Settles O34: the reply's judgement ends the attempt; the slot lets go of its buffer, reports and writes its result. -/
theorem judgedReplyEndsTheSlot : Obligations.JudgedReplyEndsTheSlot := by
  unfold Obligations.JudgedReplyEndsTheSlot
  refine ⟨slotsWriteTheirResults, fun s l a r c x o i place captured arrival hreset hs ha hr harr hl hq hc hi hrec hj ho => ?_⟩
  rw [exec_receivedCharacter_judged hreset hs ha hr hq hrec hj ho]
  generalize he : ({ (s.engine l).received x.framing with
    state := .gap, attempt := none, tx := none, elapsed := 0, failed := none } : Engine) = e
  have hk : c.kindSent ≠ kindBroadcast := by
    rw [← hl.kind_of_slot ha hq hc]
    exact hl.ne_broadcast ha (by rw [hs]; nofun)
  have hstation := hl.station_of_slot ha hq hc
  have hslot : e.slot = some c := by rw [← he]; exact hc
  obtain ⟨pool, mailboxes, hbuffer, hgo⟩ := endSlot_buffer (s := s.setEngine l e) (l := l) (c := c) ho hr harr
  rw [finishSlot_judged ho (by rw [State.setEngine_same]; exact hslot) hk hr, hgo, ← hstation, reportSlot_record _ hi]
  have left : ((s.setEngine l e).letGo l pool mailboxes).engine l = { e with held := none } := by simp [State.letGo]
  have record : ((s.setEngine l e).letGo l pool mailboxes).station l i = s.station l i := by simp [State.letGo]
  have heldBefore : ((s.setEngine l e).engine l).held = (s.engine l).held := by rw [State.setEngine_same, ← he]; rfl
  simp only [BufferSettled, heldBefore] at hbuffer
  have other : ((s.setEngine l e).letGo l pool mailboxes).engine (otherLine l) = s.engine (otherLine l) := by
    simp [State.letGo, State.setEngine_other _ _ (otherLine_ne l)]
  rw [left, record, leaveSlot_slot (c := c) o (by simpa [left] using hslot)]
  refine ⟨_, rfl, ?_, ?_, ?_, ?_, hbuffer.1, hbuffer.2, rfl⟩
  · rw [State.setEngine_same]
    simp only [State.withEvents_engine, State.setStation_engine, left]
    rw [← he]
  · rw [State.setEngine_other _ _ (otherLine_ne l)]
    exact other
  · intro j hj
    obtain rfl : i = j := Option.some.inj (hi.symm.trans hj)
    subst he
    exact ⟨rfl, rfl⟩
  · simp only [State.withEvents_engine, State.setStation_engine, left]
    rw [← he]
    rfl

end Sys2Proof.Machine
end

section
/-! The places of the window (section 11.2). -/

namespace Sys2Proof.Machine

/-- What holds of both sides of a choice, each under its condition, holds of the choice. -/
theorem of_ite {α : Sort*} {p : α → Prop} {c : Prop} [Decidable c] {x y : α} (pos : c → p x) (neg : ¬ c → p y) :
    p (if c then x else y) := by
  split
  · next h => exact pos h
  · next h => exact neg h

theorem ite_unmapped {c : Prop} [Decidable c] {x y : WinTarget} {p : Prop} (pos : c → (x = .unmapped ↔ p))
    (neg : ¬ c → (y = .unmapped ↔ p)) : (if c then x else y) = .unmapped ↔ p := of_ite (p := (· = WinTarget.unmapped ↔ p)) pos neg

/-- The addresses without a place are those that section 11.2 does not name. -/
theorem winTarget_unmapped_iff (address : Half) : winTarget address = .unmapped ↔ ¬ Mapped address.toNat := by
  unfold winTarget Mapped mailboxTarget
  dsimp only
  generalize address.toNat = n
  repeat' refine ite_unmapped (fun _ => ?_) (fun _ => ?_)
  all_goals
    simp only [reduceCtorEq, true_iff, false_iff, not_not]
    omega

/-- The offset of a line's part in a region of two parts. -/
def lineOffset (l : Line) : Nat := if l = .a then 0 else 1

/-- The address of a place of the window (section 11.2); the unmapped addresses share the last. -/
def WinTarget.address (t : WinTarget) : Nat :=
  match t with
  | .pendingEntry l i k => 0x0000 + 0x200 * lineOffset l + 16 * i.val + k
  | .activeEntry l i k => 0x0400 + 0x200 * lineOffset l + 16 * i.val + k
  | .pendingCount l => 0x0800 + lineOffset l
  | .activeCount l => 0x0802 + lineOffset l
  | .result l i k => 0x0900 + 0x100 * lineOffset l + 8 * i.val + k
  | .station l i k => 0x1000 + 0x400 * lineOffset l + 16 * (i.val + 1) + k
  | .staged n k => 0x2000 + 32 * n.val + k
  | .live n k => 0x2800 + 32 * n.val + k
  | .generation n => 0x3000 + n.val
  | .marked n => 0x3040 + n.val
  | .mailboxPart m k => 0x4000 + 64 * m.val + k
  | .mailboxHeader m k => 0x4000 + 64 * m.val + 16 + k
  | .mailboxPayload m k => 0x4000 + 64 * m.val + 32 + k
  | .eventHeader k => 0x5000 + k
  | .eventPayload k => 0x5010 + k
  | .eventBufferHeader k => 0x5030 + k
  | .staging l k => 0x6000 + 0x40 * lineOffset l + k
  | .queueView l p k => 0x6100 + 0x40 * lineOffset l + 16 * p + k
  | .unmapped => 0xFFFF

/-- The byte numbers of a place lie within its record. -/
def WinTarget.Fits (t : WinTarget) : Prop :=
  match t with
  | .result _ _ k => k < 8
  | .pendingEntry _ _ k | .activeEntry _ _ k | .station _ _ k | .mailboxPart _ k | .mailboxHeader _ k | .eventHeader k => k < 16
  | .staged _ k | .live _ k | .mailboxPayload _ k | .eventPayload k => k < 32
  | .eventBufferHeader k => k < 3
  | .staging _ k => k < 43
  | .queueView _ p k => p < 4 ∧ k < 16
  | .pendingCount _ | .activeCount _ | .generation _ | .marked _ | .unmapped => True

theorem fin_ofNat_eq {m n : Nat} [NeZero m] (i : Fin m) (h : n = i.val) : Fin.ofNat m n = i := by
  subst h
  exact Fin.ext (Nat.mod_eq_of_lt i.isLt)

/-- The address of a place leads to it (section 11.2). -/
theorem winTarget_address (t : WinTarget) (h : t.Fits) : winTarget (BitVec.ofNat 16 t.address) = t := by
  have lt : t.address < 65536 := by
    unfold WinTarget.address lineOffset
    unfold WinTarget.Fits at h
    split at h <;> dsimp only <;> (try split) <;> omega
  unfold winTarget
  rw [BitVec.toNat_ofNat, Nat.mod_eq_of_lt lt]
  clear lt
  dsimp only
  generalize hn : t.address = n
  unfold WinTarget.address lineOffset at hn
  unfold WinTarget.Fits at h
  cases t with
  | pendingEntry l i k | activeEntry l i k | result l i k | station l i k =>
    have hi := i.isLt
    cases l
    all_goals
      simp only [if_true, if_false, reduceCtorEq] at h hn
      repeat rw [if_neg (by omega)]
      rw [if_pos (by omega), fin_ofNat_eq i (by omega)]
      congr 1
      omega
  | pendingCount l | activeCount l => cases l <;> subst hn <;> rfl
  | staging l k | queueView l p k =>
    cases l
    all_goals
      simp only [if_true, if_false, reduceCtorEq] at h hn
      repeat rw [if_neg (by omega)]
      rw [if_pos (by omega)]
      simp only [WinTarget.staging.injEq, WinTarget.queueView.injEq, true_and]
      omega
  | staged i k | live i k =>
    have hi := i.isLt
    simp only at h hn
    repeat rw [if_neg (by omega)]
    rw [if_pos (by omega), fin_ofNat_eq i (by omega)]
    congr 1
    omega
  | mailboxPart m k | mailboxHeader m k | mailboxPayload m k =>
    have hm := m.isLt
    simp only at h hn
    repeat rw [if_neg (by omega)]
    rw [if_pos (by omega), fin_ofNat_eq m (by omega), mailboxTarget]
    simp (disch := omega) only [if_pos, if_neg]
    congr 1
    omega
  | generation i | marked i =>
    have hi := i.isLt
    simp only at hn
    repeat rw [if_neg (by omega)]
    rw [if_pos (by omega), fin_ofNat_eq i (by omega)]
  | eventHeader k | eventPayload k | eventBufferHeader k =>
    simp only at h hn
    repeat rw [if_neg (by omega)]
    rw [if_pos (by omega)]
    simp only [WinTarget.eventHeader.injEq, WinTarget.eventPayload.injEq, WinTarget.eventBufferHeader.injEq]
    omega
  | unmapped => subst hn; rfl

theorem toNat_of_stationIx {address : Byte} {i : Fin 62} (h : stationIx address = some i) : address.toNat = i.val + 1 := by
  unfold stationIx at h
  split at h
  · cases h; dsimp only; omega
  · cases h

/-- Every address that section 11.2 names leads to the place named (section 11.2). -/
theorem windowPlaces : WindowPlaces :=
  ⟨fun l =>
    ⟨fun i k hk => ⟨winTarget_address (.pendingEntry l i k) hk, winTarget_address (.activeEntry l i k) hk⟩,
      winTarget_address (.pendingCount l) trivial, winTarget_address (.activeCount l) trivial,
      fun i k hk => winTarget_address (.result l i k) hk,
      fun _ i k ha hk => toNat_of_stationIx ha ▸ winTarget_address (.station l i k) hk,
      fun k hk => winTarget_address (.staging l k) hk,
      fun p hp k hk => winTarget_address (.queueView l p k) ⟨hp, hk⟩⟩,
    fun n =>
      ⟨fun k hk => ⟨winTarget_address (.staged n k) hk, winTarget_address (.live n k) hk⟩,
        winTarget_address (.generation n) trivial, winTarget_address (.marked n) trivial⟩,
    fun m =>
      ⟨fun k hk => ⟨winTarget_address (.mailboxPart m k) hk, winTarget_address (.mailboxHeader m k) hk⟩,
        fun k hk => winTarget_address (.mailboxPayload m k) hk⟩,
    fun k hk => winTarget_address (.eventHeader k) hk, fun k hk => winTarget_address (.eventPayload k) hk,
    fun k hk => winTarget_address (.eventBufferHeader k) hk⟩

end Sys2Proof.Machine
end

section
/-! The records that the window shows, byte by byte (sections 11.3 to 11.9), and their bytes written one at a time (sections 11.3, 11.9). -/

namespace Sys2Proof.Machine

/-! ## Bytes of a record -/

theorem twoBytes_eq (h : Half) : twoBytes h = [lowByte h, highByte h] := by
  rw [twoBytes, ← highByte_eq_extract]; rfl

theorem lineCode_eq (l : Line) : lineCode l = if l = .a then 0 else 1 := by cases l <;> rfl

theorem outcomes_row (o : Outcome) : outcomes[(outcomeCode o).toNat]? = some o := by cases o <;> rfl

theorem healths_row (h : Health) : [Health.unknown, .online, .suspect, .offline, .parked][(healthCode h).toNat]? = some h := by
  cases h <;> rfl

theorem mailboxStates_row (m : MailboxState) :
    [MailboxState.empty, .full, .claimed, .claimedNext][(mailboxCode m).toNat]? = some m := by
  cases m <;> rfl

theorem eventKinds_row (k : EventKind) : 1 ≤ (eventCode k).toNat
    ∧ [EventKind.acyclicDone, .stationOnline, .stationOffline, .statusChange, .cycleOverrun, .changeoverDone, .changeoverRefused,
        .copyDone, .syncLost, .syncRegained, .poolEmpty, .overflow][(eventCode k).toNat - 1]? = some k := by
  cases k <;> exact ⟨by decide, rfl⟩

/-- The bits of a result's flag byte (section 11.4). -/
theorem resultFlags_bits (attempts : BitVec 3) (resync afterBoundary startedLate : Bool) :
    let flags := attempts.setWidth 8 ||| (byteOfBool resync <<< 4) ||| (byteOfBool afterBoundary <<< 5) ||| (byteOfBool startedLate <<< 6)
    flags.toNat % 8 = attempts.toNat ∧ flags.getLsbD 3 = false ∧ flags.getLsbD 4 = resync ∧ flags.getLsbD 5 = afterBoundary
      ∧ flags.getLsbD 6 = startedLate ∧ flags.getLsbD 7 = false := by
  revert attempts resync afterBoundary startedLate
  decide

theorem entryBytes_eq (e : Entry) : (List.range 16).map (entryByte e) = e.layout := by
  simp only [Entry.layout, twoBytes_eq]
  rfl

/-- The bytes of a descriptor are its fields', then its payload's (section 11.9). -/
theorem descriptorBytes_eq (d : Descriptor) : (List.range 43).map (descriptorByte d) = d.layout := by
  have payload : (List.range 32).map (fun k => d.payload[k]?.getD 0) = d.payload.toList := by
    refine List.ext_getElem (by simp) fun k hk _ => ?_
    simp at hk
    simp [hk]
  rw [Descriptor.layout, ← payload]
  simp only [twoBytes_eq]
  rfl

theorem windowLayouts : WindowLayouts := by
  refine ⟨outcomes_row, healths_row, entryBytes_eq, descriptorBytes_eq, fun r => ?_, fun r => ?_, fun m => ?_, fun b => ?_,
    fun buffers e => ?_⟩
  · obtain ⟨hattempts, hbits⟩ := resultFlags_bits (BitVec.ofNat 3 r.attempts) r.resync r.afterBoundary r.startedLate
    simp only [twoBytes_eq]
    exact ⟨_, _, rfl, outcomes_row _, hattempts, hbits⟩
  · simp only [twoBytes_eq]
    exact ⟨_, _, rfl, healths_row _, outcomes_row _⟩
  · simp only [twoBytes_eq]
    exact ⟨_, rfl, mailboxStates_row _⟩
  · simp only [twoBytes_eq, ← lineCode_eq]
    rfl
  · refine ⟨eventCode e.kind, ?_, eventKinds_row _⟩
    simp only [eventBytes, twoBytes_eq]
    rcases e.line with _ | _ | _ <;> cases e.buffer <;> rfl

/-! ## Bytes written (sections 11.3 and 11.9) -/

section Halves

variable (h : Half) (v : Byte)

theorem bytes_withLow : lowByte (withLow h v) = v ∧ highByte (withLow h v) = highByte h :=
  ((twoBytes_eq_iff (highByte h) v (withLow h v)).mp rfl).symm.imp Eq.symm Eq.symm

theorem bytes_withHigh : lowByte (withHigh h v) = lowByte h ∧ highByte (withHigh h v) = v :=
  ((twoBytes_eq_iff v (lowByte h) (withHigh h v)).mp rfl).symm.imp Eq.symm Eq.symm

end Halves

/-- A byte written into an entry is the byte of its layout that changes (section 11.3). -/
theorem layout_entryWith (e : Entry) (k : Nat) (v : Byte) (hk : k < 16) : (entryWith e k v).layout = e.layout.set k v := by
  interval_cases k <;> simp only [Entry.layout, entryWith, twoBytes_eq, bytes_withLow, bytes_withHigh] <;> rfl

/-- A byte written into a descriptor is the byte of its layout that changes (section 11.9). -/
theorem layout_descriptorWith (d : Descriptor) (k : Nat) (v : Byte) (hk : k < 43) :
    (descriptorWith d k v).layout = d.layout.set k v := by
  by_cases h : k < 11
  · interval_cases k <;> simp only [Descriptor.layout, descriptorWith, twoBytes_eq, bytes_withLow, bytes_withHigh] <;> rfl
  · obtain ⟨j, rfl⟩ := Nat.exists_eq_add_of_le' (Nat.le_of_not_lt h)
    have written : descriptorWith d (j + 11) v = { d with payload := d.payload.setIfInBounds j v } := rfl
    rw [written]
    simp only [Descriptor.layout, twoBytes_eq, Vector.toList_setIfInBounds]
    rfl

end Sys2Proof.Machine
end

section
/-! Window reads (R33, R47, R116, R150, R157 to R160). -/

namespace Sys2Proof.Machine

/-! ## A copy on its way (R47, log 6) -/

theorem entryByte_eq (e : Entry) (k : Nat) : entryByte e k = e.layout.getD k 0 := by
  by_cases hk : k < 16
  · rw [← entryBytes_eq]
    simp [hk]
  · obtain ⟨j, rfl⟩ := Nat.exists_eq_add_of_le' (Nat.le_of_not_lt hk)
    rfl

/-- A byte written into an entry is the one byte that reads otherwise (section 11.3). -/
theorem entryByte_entryWith (e : Entry) {j : Nat} (k : Nat) (v : Byte) (hj : j < 16) :
    entryByte (entryWith e j v) k = if k = j then v else entryByte e k := by
  rw [entryByte_eq, layout_entryWith e j v hj, entryByte_eq]
  split
  · next h => subst h; simp [Entry.layout, twoBytes, hj]
  · next h => simp [List.getElem?_set_ne (Ne.symm h)]

/-- A slot list whose every byte is one of the source's or of the target's: one that a copy from the one to the other passes through. -/
def SlotList.Between (source target t : SlotList) : Prop :=
  (t.count = target.count ∨ t.count = source.count)
  ∧ ∀ (i : Fin 32) (k : Nat), entryByte t.entries[i] k = entryByte target.entries[i] k
      ∨ entryByte t.entries[i] k = entryByte source.entries[i] k

section Copy

variable {source target t : SlotList}

theorem SlotList.Between.refl (source target : SlotList) : Between source target target := ⟨.inl rfl, fun _ _ => .inl rfl⟩

theorem SlotList.Between.withCount (h : Between source target t) : Between source target { t with count := source.count } :=
  ⟨.inr rfl, h.2⟩

theorem SlotList.Between.withEntryByte (h : Between source target t) (i : Fin 32) (j : Nat) (hj : j < 16) :
    Between source target (t.withEntryByte i j (entryByte source.entries[i] j)) := by
  refine ⟨h.1, fun i' k => ?_⟩
  rw [SlotList.withEntryByte]
  by_cases hi : i' = i
  · subst hi
    simp only [setAt_same, entryByte_entryWith _ k _ hj]
    split
    · next hk => subst hk; exact .inr rfl
    · exact h.2 i' k
  · simp only [setAt_other _ _ hi]
    exact h.2 i' k

/-- Each byte that a copy takes over leaves every byte of the bank one of the source's or of the target's (R47). -/
theorem bankWith_between {source target b : Bank} (h : ∀ l, SlotList.Between (source.get l) (target.get l) (b.get l)) (k : Nat) :
    ∀ l, SlotList.Between (source.get l) (target.get l) ((bankWith b k (bankByte source k)).get l) := by
  have ha := h .a
  have hb := h .b
  unfold bankWith bankByte
  have low : k % 16 < 16 := Nat.mod_lt _ (by decide)
  split_ifs <;> intro l <;> cases l
  · exact ha.withEntryByte _ _ low
  · exact hb
  · exact ha
  · exact hb.withEntryByte _ _ low
  · exact ha.withCount
  · exact hb
  · exact ha
  · exact hb.withCount

theorem copyRun_between {source target : Bank} (n : Nat) : ∀ (k : Nat) {b : Bank},
    (∀ l, SlotList.Between (source.get l) (target.get l) (b.get l)) →
    ∀ l, SlotList.Between (source.get l) (target.get l) ((copyRun source n k b).get l) := by
  induction n with
  | zero => exact fun _ _ h => h
  | succ n ih => exact fun k _ h => ih (k + 1) (bankWith_between h k)

end Copy

theorem Schedule.copyOn_pendingBank (x : Schedule) {k : Nat} (h : x.copy = some k) (bytes : Nat) :
    (x.copyOn bytes).pendingBank = copyRun x.activeBank (min bytes (Config.copyBytes - 1 - k)) k x.pendingBank := by
  simp only [Schedule.copyOn, h]
  exact x.withPending_pendingBank _

/-- A copy looked at has every byte of the pending bank as it was or as the active bank's, and runs on (R33, R47). -/
theorem Schedule.copyOn_between {x : Schedule} (h : x.copy.isSome = true) (bytes : Nat) :
    (∀ l, SlotList.Between (x.activeBank.get l) (x.pendingBank.get l) ((x.copyOn bytes).pendingBank.get l))
    ∧ (x.copyOn bytes).copy.isSome = true
    ∧ x.copyOn bytes = { x with
        bank0 := (x.copyOn bytes).bank0, bank1 := (x.copyOn bytes).bank1, copy := (x.copyOn bytes).copy } := by
  obtain ⟨k, hk⟩ := Option.isSome_iff_exists.mp h
  refine ⟨fun l => ?_, ?_, ?_⟩
  · rw [x.copyOn_pendingBank hk]
    exact copyRun_between _ k (fun l => .refl _ _) l
  all_goals simp only [Schedule.copyOn, hk]
  · rfl
  · rw [x.withPending_only]

/-! ## What a read answers -/

section Reads

variable {s : State}

theorem exec_winPeekRead (hr : s.inReset = false) :
    exec .winPeekRead s = .next (readAtPointer (s.withHost { s.host with data := none })) :=
  exec_ofAccess (c := .winPeekRead) hr rfl

theorem exec_winDataRead (hr : s.inReset = false) :
    exec .winDataRead s = .next (advancePointer (readAtPointer (s.withHost { s.host with data := none }))) :=
  exec_ofAccess (c := .winDataRead) hr rfl

/-- A read drives the answer of the place at the pointer, and leaves the pointer (R157). -/
theorem exec_winPeekRead_at {place : WinTarget} (hr : s.inReset = false) (h : winTarget s.host.ptr = place) {v : Byte} {u : State}
    (hread : windowRead place (s.withHost { s.host with data := none }) = (v, u)) :
    exec .winPeekRead s = .next (u.withHost { u.host with data := some v }) := by
  rw [exec_winPeekRead hr, readAtPointer, show (s.withHost { s.host with data := none }).host.ptr = s.host.ptr from rfl, h, hread]

theorem readAtPointer_host (u : State) : (readAtPointer u).host.ptr = u.host.ptr ∧ ∃ v, (readAtPointer u).host.data = some v := by
  obtain ⟨latch, winError, schedule, choices, -, only, -⟩ := windowRead_only (winTarget u.host.ptr) u
  rw [readAtPointer]
  dsimp only
  rw [only]
  exact ⟨rfl, _, rfl⟩

theorem copyProgress_idle (h : s.schedule.copy = none) : copyProgress s = s := by
  rw [copyProgress, h]; rfl

theorem toList_getD {n : Nat} (v : Vector Byte n) (k : Nat) : v.toList.getD k 0 = v[k]?.getD 0 := by
  simp

theorem copyProgress_running (h : s.schedule.copy.isSome = true) :
    copyProgress s = (s.withSchedule (s.schedule.copyOn (Config.freeCopied s.choices))).drawn := if_pos h

/-- The head event's buffer, where the event has one (R150). -/
theorem headBuffer_eq (s : State) : headBuffer s = (s.events.entries.head?.bind (·.buffer)).map fun b => s.pool.buffers[b] := by
  unfold headBuffer
  cases s.events.entries <;> rfl

/-- A place that is not latched answers its byte, and its read does nothing else. -/
theorem windowRead_byteAt {place : WinTarget} {v : Byte} (h : byteAt s place = some v) : windowRead place s = (v, s) := by
  cases place with
  | pendingEntry l i k | pendingCount l =>
    simp only [byteAt, Option.ite_none_right_eq_some, Option.some.injEq] at h
    obtain ⟨hcopy, rfl⟩ := h
    simp only [windowRead, copyProgress_idle hcopy]
  | mailboxHeader m k =>
    simp only [byteAt, Option.ite_none_right_eq_some, Option.map_eq_some_iff] at h
    obtain ⟨hstate, b, hb, rfl⟩ := h
    rcases hstate with hstate | hstate <;> simp only [windowRead, readClaimed, hstate, hb]
  | eventPayload k =>
    cases h
    rw [windowRead, headBuffer_eq]
    cases s.events.entries.head?.bind (·.buffer) with
    | none => rfl
    | some b => simp only [toList_getD]; rfl
  | eventBufferHeader k =>
    cases h
    rw [windowRead, headBuffer_eq]
    cases s.events.entries.head?.bind (·.buffer) with
    | none => rfl
    | some b => rcases k with _ | _ | k <;> rfl
  | staged n k | live n k => cases h; rw [toList_getD]; rfl
  | queueView l p k =>
    cases h
    rw [windowRead]
    cases (s.acyclic.get l).queue[p]? <;> rfl
  | result | station | mailboxPart | mailboxPayload | eventHeader | unmapped => cases h
  | activeEntry | activeCount | generation | marked | staging => cases h; rfl

/-- A mailbox's buffer is not read without a claim (R116). -/
theorem windowRead_unclaimed {place : WinTarget} {m : Fin 48} {k : Nat} (h : place = .mailboxHeader m k ∨ place = .mailboxPayload m k)
    (unclaimed : s.mailboxes[m].state = .empty ∨ s.mailboxes[m].state = .full) : windowRead place s = (0, s.flagWinError) := by
  rcases h with rfl | rfl <;> rcases unclaimed with h | h <;> simp only [windowRead, readClaimed, h]

/-- Under a claim the payload is read below its length (R101, R116). -/
theorem windowRead_payload {m : Fin 48} {b : Fin 72} (k : Nat)
    (h : s.mailboxes[m].state = .claimed ∨ s.mailboxes[m].state = .claimedNext) (hb : s.mailboxes[m].current = some b) :
    windowRead (.mailboxPayload m k) s = (bufferPayloadByte s.pool.buffers[b] k, s) := by
  rcases h with h | h <;> simp only [windowRead, readClaimed, h, hb]

/-- A later byte of a record that the latch holds (R160). -/
theorem readRecord_latched {id : RecordId} {bytes : List Byte} {k : Nat} {c : Latch} (hk : k ≠ 0) (hc : s.host.latch = some c)
    (hid : c.id = id) : readRecord id bytes k s = (c.bytes.getD k 0, s) := by
  simp [readRecord, hk, hc, hid]

/-- A later byte of a record that the latch does not hold (R160). -/
theorem readRecord_standing {id : RecordId} {bytes : List Byte} {k : Nat} (hk : k ≠ 0)
    (other : ∀ c, s.host.latch = some c → c.id ≠ id) : readRecord id bytes k s = (bytes.getD k 0, s) := by
  cases hc : s.host.latch with
  | none => simp [readRecord, hk, hc]
  | some c => simp [readRecord, hk, hc, other c hc]

/-- A place of a latchable record reads that record (R159, R160). -/
theorem windowRead_recordAt {place : WinTarget} {id : RecordId} {bytes : List Byte} {k : Nat}
    (h : recordAt s place = some (id, bytes, k)) : windowRead place s = readRecord id bytes k s := by
  cases place with
  | result | station | mailboxPart | eventHeader => cases h; rfl
  | _ => cases h

/-- A read of the pending schedule while a copy runs (R33, R47). -/
theorem readsMidCopy {place : WinTarget} {byte : Bank → Byte} (hr : s.inReset = false) (h : winTarget s.host.ptr = place)
    (hread : ∀ u : State, windowRead place u = (byte (copyProgress u).schedule.pendingBank, copyProgress u))
    (hbyte : ∀ source target b : Bank, (∀ l, SlotList.Between (source.get l) (target.get l) (b.get l)) →
      byte b = byte target ∨ byte b = byte source) :
    ReadsMidCopy s byte := by
  intro running
  let x := s.schedule.copyOn (Config.freeCopied s.choices)
  obtain ⟨between, copying, only⟩ : _ ∧ x.copy.isSome = true ∧ x = _ :=
    Schedule.copyOn_between running (Config.freeCopied s.choices)
  have hexec : exec .winPeekRead s = .next { s with
      schedule := x, choices := s.choices + 1, host := { s.host with data := some (byte x.pendingBank) } } := by
    rw [exec_winPeekRead_at hr h (hread _), copyProgress_running (by exact running)]
    rfl
  refine ⟨_, _, hexec, hbyte s.schedule.activeBank _ _ between, rfl, rfl, (s.schedule.copyOn_kept _).activeBank, copying, ?_⟩
  dsimp only
  rw [← only]

end Reads

/-- Settles O53: a read answers what its place holds, by the place; a copy passes only through banks between the two it copies. -/
theorem windowReadsLatchAndMoveOn : Obligations.WindowReadsLatchAndMoveOn := by
  unfold Obligations.WindowReadsLatchAndMoveOn
  refine ⟨winTarget_unmapped_iff, windowPlaces, windowLayouts, fun s hr => ⟨?_, fun h => ?_, fun m k h unclaimed => ?_,
    fun m k b h claimed hb => ?_, fun v hv => ?_, fun l i k h => ?_, fun l h => ?_, fun id bytes k hrec => ?_, fun hempty => ?_⟩⟩
  · obtain ⟨hptr, v, hv⟩ := readAtPointer_host (s.withHost { s.host with data := none })
    refine ⟨_, v, exec_winPeekRead hr, hptr, hv, ?_⟩
    rw [exec_winDataRead hr, advancePointer, hptr]
    rfl
  · exact exec_winPeekRead_at hr h rfl
  · exact (exec_winPeekRead_at hr rfl (windowRead_unclaimed h unclaimed)).trans rfl
  · exact (exec_winPeekRead_at hr h (windowRead_payload k claimed hb)).trans rfl
  · exact (exec_winPeekRead_at hr rfl (windowRead_byteAt hv)).trans rfl
  · exact readsMidCopy hr h (fun _ => rfl) fun _ _ _ between => (between l).2 i k
  · exact readsMidCopy hr h (fun _ => rfl) fun _ _ _ between => (between l).1
  · have hread := windowRead_recordAt (s := s.withHost { s.host with data := none }) hrec
    refine ⟨fun hk => ?_, fun hk c hc hid => ?_, fun hk other => ?_⟩
    · subst hk
      exact (exec_winPeekRead_at hr rfl (hread.trans (readRecord_first ..))).trans rfl
    · exact (exec_winPeekRead_at hr rfl (hread.trans (readRecord_latched hk hc hid))).trans rfl
    · exact (exec_winPeekRead_at hr rfl (hread.trans (readRecord_standing hk other))).trans rfl
  · rw [headBytes, hempty]

end Sys2Proof.Machine
end

section
/-! Window writes (R33, R120, R128, R157, R158). -/

namespace Sys2Proof.Machine

section Writes

variable {s : State} {v : Byte} {place : WinTarget}

theorem exec_winDataWrite (hr : s.inReset = false) :
    exec (.winDataWrite v) s =
      .next (advancePointer (windowWrite (winTarget s.host.ptr) v (s.withHost { s.host with data := none }))) :=
  exec_ofAccess (c := .winDataWrite v) hr rfl

/-- A write reaches the place at the pointer (R157). -/
theorem exec_winPeekWrite_at (hr : s.inReset = false) (h : winTarget s.host.ptr = place) :
    exec (.winPeekWrite v) s = .next (windowWrite place v (s.withHost { s.host with data := none })) := by
  rw [exec_ofAccess (c := .winPeekWrite v) hr rfl, ← h]
  rfl

/-- A write touches nothing of the Host Port but its flags (R33, R158). -/
theorem windowWrite_host (place : WinTarget) (v : Byte) (u : State) :
    (windowWrite place v u).host.ptr = u.host.ptr ∧ (windowWrite place v u).host.data = u.host.data := by
  have pending (f : Bank → Bank) : (writePending f u).host.ptr = u.host.ptr ∧ (writePending f u).host.data = u.host.data := by
    unfold writePending
    split <;> exact ⟨rfl, rfl⟩
  cases place with
  | pendingEntry | pendingCount => exact pending _
  | _ => exact ⟨rfl, rfl⟩

theorem writePending_locked (f : Bank → Bank) (h : s.schedule.changeover ≠ .none ∨ s.schedule.copy.isSome = true) :
    writePending f s = s.flagWinLocked := if_pos (s.schedule.pendingShielded_iff.mpr h)

theorem writePending_free (f : Bank → Bank) (h : ¬ (s.schedule.changeover ≠ .none ∨ s.schedule.copy.isSome = true)) :
    writePending f s = s.withSchedule (s.schedule.withPending (f s.schedule.pendingBank)) :=
  if_neg (mt s.schedule.pendingShielded_iff.mp h)

theorem windowWrite_locked {l : Line} {i : Fin 32} {k : Nat} (h : place = .pendingEntry l i k ∨ place = .pendingCount l)
    (locked : s.schedule.changeover ≠ .none ∨ s.schedule.copy.isSome = true) {host : HostPort} :
    windowWrite place v (s.withHost host) = (s.withHost host).flagWinLocked := by
  rcases h with rfl | rfl <;>
  · rw [windowWrite]
    exact writePending_locked (s := s.withHost host) _ locked

/-- The places beside the pending view, the staged images and the staging descriptors take no write (R158). -/
theorem windowWrite_ignored (entry : ∀ l i k, place ≠ .pendingEntry l i k) (count : ∀ l, place ≠ .pendingCount l)
    (staged : ∀ n k, place ≠ .staged n k) (staging : ∀ l k, place ≠ .staging l k) : windowWrite place v s = s.flagWinError := by
  cases place with
  | pendingEntry => exact (entry _ _ _ rfl).elim
  | pendingCount => exact (count _ rfl).elim
  | staged => exact (staged _ _ rfl).elim
  | staging => exact (staging _ _ rfl).elim
  | _ => rfl

/-- A write that the pending view takes changes one line's list, and nothing beside the pending bank (R33). -/
theorem exec_winPeekWrite_pending {l : Line} {change : SlotList → SlotList} (hr : s.inReset = false)
    (free : ¬ (s.schedule.changeover ≠ .none ∨ s.schedule.copy.isSome = true)) (h : winTarget s.host.ptr = place)
    (hwrite : ∀ u, windowWrite place v u = writePending (fun b => b.set l (change (b.get l))) u) :
    ∃ t, exec (.winPeekWrite v) s = .next t
      ∧ t.schedule.pendingBank.get l = change (s.schedule.pendingBank.get l)
      ∧ t.schedule.pendingBank.get (otherLine l) = s.schedule.pendingBank.get (otherLine l)
      ∧ t.schedule.activeBank = s.schedule.activeBank
      ∧ t = { s with
          schedule := { s.schedule with bank0 := t.schedule.bank0, bank1 := t.schedule.bank1 }
          host := { s.host with data := none } } := by
  let bank := s.schedule.pendingBank.set l (change (s.schedule.pendingBank.get l))
  have hexec : exec (.winPeekWrite v) s = .next { s with
      schedule := s.schedule.withPending bank, host := { s.host with data := none } } := by
    rw [exec_winPeekWrite_at hr h, hwrite, writePending_free _ (by exact free)]
    rfl
  refine ⟨_, hexec, ?_, ?_, s.schedule.withPending_activeBank bank, ?_⟩
  · dsimp only
    rw [s.schedule.withPending_pendingBank bank, Two.get_set_same]
  · dsimp only
    rw [s.schedule.withPending_pendingBank bank, Two.get_set_other _ _ (otherLine_ne l)]
  · dsimp only
    rw [← s.schedule.withPending_only bank]

end Writes

/-- Settles O54: a write is taken or ignored by its place, and the bytes written are those of the layouts. -/
theorem windowWritesObeyTheirRegions : Obligations.WindowWritesObeyTheirRegions := by
  unfold Obligations.WindowWritesObeyTheirRegions
  refine ⟨windowPlaces, layout_entryWith, layout_descriptorWith, fun s v hr => ⟨?_, fun l i k h locked => ?_, fun l i k h free => ?_,
    fun l h free => ?_, fun n k h => ?_, fun l k h => ?_, fun entry count staged staging => ?_⟩⟩
  · obtain ⟨hptr, hdata⟩ := windowWrite_host (winTarget s.host.ptr) v (s.withHost { s.host with data := none })
    refine ⟨_, exec_winPeekWrite_at hr rfl, hptr, hdata, ?_⟩
    rw [exec_winDataWrite hr, advancePointer, hptr]
    rfl
  · rw [exec_winPeekWrite_at hr rfl, windowWrite_locked h locked]
    rfl
  · obtain ⟨t, hexec, hlist, hother, hactive, honly⟩ :=
      exec_winPeekWrite_pending (change := fun x => x.withEntryByte i k v) hr free h fun _ => rfl
    refine ⟨t, hexec, ?_, fun j hj => ?_, ?_, hother, hactive, honly⟩ <;> rw [hlist]
    · exact setAt_same ..
    · exact setAt_other _ _ hj
    · rfl
  · exact exec_winPeekWrite_pending (change := fun x => { x with count := v }) hr free h fun _ => rfl
  · exact (exec_winPeekWrite_at hr h).trans rfl
  · exact (exec_winPeekWrite_at hr h).trans rfl
  · rw [exec_winPeekWrite_at hr rfl, windowWrite_ignored entry count staged staging]
    rfl

end Sys2Proof.Machine
end

section
/-! The phases of a legal engine: down, at rest, serving an exchange, and the engines that each phase makes legal (section 4.2). -/

namespace Sys2Proof.Machine

/-! ## Phases -/

/-- A slot that has made no attempt of its own (R63). -/
def Slot.Unused (c : Slot) : Prop := c.attempts = 0 ∧ c.resync = false ∧ c.arrival = 0 ∧ c.afterBoundary = false

/-- Nothing is under way: the engine waits or counts a frame gap with nothing to decide. -/
structure Engine.Idles (e : Engine) : Prop where
  enabled : e.disabling = false
  state : e.state = .wait ∨ e.state = .gap
  tx : e.tx = none
  attempt : e.attempt = none
  held : e.held = none
  request : e.request = none
  failed : e.failed = none

/-- An idle engine without a slot, or in an OPEN slot (R61, R63). -/
structure Engine.Rests (e : Engine) : Prop extends e.Idles where
  slot : ∀ c, e.slot = some c → c.isOpen = true ∧ c.Unused
  snapshot : e.snapshot = none
  next : e.next.isSome = true → e.state = .wait ∧ e.slot = none ∧ e.notice.isSome = true

/-- An exchange is under way: a slot's own, or that of a request in an OPEN slot, its attempts counted and a buffer held only for a reply
(R61, R63, R66, R73, R133, R135). -/
structure Engine.Serves (e : Engine) : Prop where
  enabled : e.disabling = false
  next : e.next = none
  slot : e.slot.isSome = true
  opened : e.slot.any (·.isOpen) = e.request.isSome
  unused : ∀ c, e.slot = some c → c.isOpen = true → c.Unused ∧ e.snapshot = none
  slotAttempts : ∀ c, e.slot = some c → c.attempts ≤ c.entry.retryLimit.toNat + 1
  requestAttempts : ∀ q, e.request = some q → q.attempts ≤ q.desc.retryLimit.toNat + 1
  held : ∀ x, e.exchange = some x → x.kind = kindBroadcast → e.held = none

/-- An attempt carries an exchange (R67, R135). -/
def Attempt.Carries (a : Attempt) (x : Exchange) : Prop :=
  a.station = x.station ∧ a.kind = x.kind ∧ a.replyWindow = x.replyWindow ∧ a.expected = x.expected

/-- An attempt of the exchange under way is made. -/
structure Engine.Makes (e : Engine) (a : Attempt) : Prop extends e.Serves where
  attempt : e.attempt = some a
  failed : e.failed = none
  carries : ∃ x, e.exchange = some x ∧ a.Carries x

theorem Engine.inFlight_false_iff (e : Engine) : e.inFlight = false ↔ e.state = .off ∨ e.state = .wait ∨ e.state = .gap := by
  cases hs : e.state <;> simp [Engine.inFlight, hs]

/-! ## Each phase is legal -/

section Phases

variable {e : Engine}

theorem Engine.Rests.legal (h : e.Rests) : e.Legal := by
  obtain ⟨⟨enabled, state, tx, attempt, held, request, failed⟩, slot, snapshot, next⟩ := h
  have still : e.state ≠ .off ∧ e.state ≠ .transmit := by rcases state with h | h <;> simp [h]
  have isOpen' : e.slot.isSome = true → e.slot.any (·.isOpen) = true := fun hs => by
    obtain ⟨c, hc⟩ := Option.isSome_iff_exists.mp hs
    simp [hc, (slot c hc).1]
  have noFlight : e.inFlight = false := (e.inFlight_false_iff).mpr (.inr state)
  refine ⟨fun hs => absurd hs still.1, by simp [enabled], by simp [tx, still.2], by simp [attempt, noFlight],
    fun _ => ⟨attempt, held, snapshot, request, failed⟩, next, by simp [request], fun _ _ => ⟨attempt, held, failed⟩,
    fun _ => ⟨held, request, failed, isOpen'⟩, fun _ _ => ⟨held, request, isOpen'⟩, by simp [failed], by simp [attempt], by simp [attempt],
    by simp [attempt], by simp [attempt], fun c hc => ?_, by simp [request], fun c hc _ => ?_, fun _ _ _ => held, by simp [attempt],
    fun hs => absurd hs still.1⟩
  · obtain ⟨-, hattempts, -⟩ := slot c hc
    omega
  · obtain ⟨-, hattempts, hresync, harrival, hafter⟩ := slot c hc
    exact ⟨hattempts, hresync, harrival, hafter, snapshot⟩

/-- What an engine in service, neither OFF nor in WAIT, owes to the exchange alone. -/
theorem Engine.Serves.legal_of (h : e.Serves) (hoff : e.state ≠ .off) (hwait : e.state ≠ .wait)
    (htx : e.tx.isSome = true ↔ e.state = .transmit) (hattempt : e.attempt.isSome = true ↔ e.inFlight = true)
    (hbusy : e.attempt = none → e.failed ≠ none) (hfailed : ∀ o, e.failed = some o → e.state = .gap ∧ o.Failed)
    (hmade : ∀ a, e.attempt = some a → (∃ x, e.exchange = some x ∧ a.Carries x) ∧ (e.state ≠ .transmit → a.kind ≠ kindBroadcast)
      ∧ (e.state = .receive → a.reply.isSome = true ∧ a.arrival.isSome = true)
      ∧ (e.state = .quiet → ∃ o, a.judged = some o ∧ o.Failed) ∧ (e.state = .transmit → a.reply = none)) : e.Legal := by
  obtain ⟨enabled, next, slot, opened, unused, slotAttempts, requestAttempts, held⟩ := h
  have noSlot : e.slot ≠ none := Option.isSome_iff_ne_none.mp slot
  have noGap : e.state = .gap → e.failed ≠ none := fun hg => hbusy (by
    simpa [(e.inFlight_false_iff).mpr (.inr (.inr hg))] using hattempt)
  refine ⟨fun hs => absurd hs hoff, by simp [enabled], htx, by simp [enabled, hattempt], fun hs => absurd hs noSlot, by simp [next],
    fun hq => by rw [opened, hq], fun ho hq => by simp [opened, hq] at ho, fun hw => absurd hw hwait,
    fun hg hf => absurd hf (noGap hg), hfailed, fun a ha => (hmade a ha).1, fun a ha => (hmade a ha).2.1,
    fun a ha => (hmade a ha).2.2.1, fun a ha => (hmade a ha).2.2.2.1, slotAttempts, requestAttempts, fun c hc ho => ?_, held,
    fun a ha => (hmade a ha).2.2.2.2, fun hs => absurd hs hoff⟩
  obtain ⟨⟨hattempts, hresync, harrival, hafter⟩, hsnapshot⟩ := unused c hc ho
  exact ⟨hattempts, hresync, harrival, hafter, hsnapshot⟩

/-- An attempt has failed and its retry decision is still to come (R72, R73). -/
theorem Engine.Serves.legal_failed {o : Outcome} (h : e.Serves) (hs : e.state = .gap) (ha : e.attempt = none) (htx : e.tx = none)
    (hf : e.failed = some o) (ho : o.Failed) : e.Legal :=
  h.legal_of (by simp [hs]) (by simp [hs]) (by simp [htx, hs]) (by simp [ha, Engine.inFlight, hs]) (by simp [hf])
    (fun o' ho' => ⟨hs, Option.some.inj (hf.symm.trans ho') ▸ ho⟩) (by simp [ha])

theorem Engine.Makes.legal {a : Attempt} (h : e.Makes a) (hflight : e.inFlight = true)
    (htx : e.tx.isSome = true ↔ e.state = .transmit) (hk : e.state ≠ .transmit → a.kind ≠ kindBroadcast)
    (hreceive : e.state = .receive → a.reply.isSome = true ∧ a.arrival.isSome = true)
    (hquiet : e.state = .quiet → ∃ o, a.judged = some o ∧ o.Failed) (hsent : e.state = .transmit → a.reply = none) : e.Legal := by
  obtain ⟨serves, attempt, failed, carries⟩ := h
  refine serves.legal_of (fun hs => ?_) (fun hs => ?_) htx (by simp [attempt, hflight]) (by simp [attempt]) (by simp [failed])
    fun a' ha' => ?_
  · simp [Engine.inFlight, hs] at hflight
  · simp [Engine.inFlight, hs] at hflight
  · obtain rfl : a = a' := Option.some.inj (attempt.symm.trans ha')
    exact ⟨carries, hk, hreceive, hquiet, hsent⟩

/-- An OFF engine holds nothing and receives nothing (R57, R80). -/
theorem Engine.turnOff_legal (e : Engine) : e.turnOff.Legal := by
  simp [Engine.Legal, Engine.turnOff, Engine.emptied, Engine.HoldsNothing, Engine.inFlight]

/-- A line that finishes its character for LINE_DISABLE holds nothing (R80). -/
theorem Engine.disabling_legal (hs : e.state = .transmit) (htx : e.tx.isSome = true) :
    Engine.Legal { e.emptied with disabling := true } := by
  simp [Engine.Legal, Engine.emptied, Engine.HoldsNothing, hs, htx]

/-! ## A legal engine's phase -/

namespace Engine.Legal

theorem enabled (h : e.Legal) (hs : e.state ≠ .transmit) : e.disabling = false := by
  cases hd : e.disabling with
  | false => rfl
  | true => exact absurd (h.of_disabling hd).2 hs

theorem tx_none (h : e.Legal) (hs : e.state ≠ .transmit) : e.tx = none := by
  simpa [hs] using h.tx_iff

theorem unused (h : e.Legal) {c : Slot} (hc : e.slot = some c) (ho : c.isOpen = true) : c.Unused ∧ e.snapshot = none := by
  obtain ⟨h1, h2, h3, h4, h5⟩ := h.of_openSlot hc ho
  exact ⟨⟨h1, h2, h3, h4⟩, h5⟩

/-- In WAIT, and in a frame gap with nothing to decide, a legal engine rests. -/
theorem rests (h : e.Legal) (hs : e.state = .wait ∨ (e.state = .gap ∧ e.failed = none)) : e.Rests := by
  have still : e.state ≠ .transmit ∧ e.inFlight = false := by
    rcases hs with hs | ⟨hs, -⟩ <;> simp [hs, Engine.inFlight]
  have attempt : e.attempt = none := by simpa [still.2] using h.attempt_iff
  obtain ⟨held, request, failed, isOpen'⟩ : e.held = none ∧ e.request = none ∧ e.failed = none
      ∧ (e.slot.isSome = true → e.slot.any (·.isOpen) = true) := by
    rcases hs with hs | ⟨hs, hf⟩
    · exact h.of_wait hs
    · obtain ⟨held, request, isOpen'⟩ := h.of_gap hs hf
      exact ⟨held, request, hf, isOpen'⟩
  have slot : ∀ c, e.slot = some c → c.isOpen = true := fun c hc => by simpa [hc] using isOpen'
  refine ⟨⟨h.enabled still.1, hs.imp_right And.left, h.tx_none still.1, attempt, held, request, failed⟩,
    fun c hc => ⟨slot c hc, (h.unused hc (slot c hc)).1⟩, ?_, h.of_next⟩
  cases hc : e.slot with
  | none => obtain ⟨-, -, hsnapshot, -⟩ := h.of_noSlot hc; exact hsnapshot
  | some c => exact (h.unused hc (slot c hc)).2

/-- An engine that has an attempt in flight, or one that failed, serves an exchange. -/
theorem serves (h : e.Legal) (hb : e.attempt.isSome = true ∨ e.failed.isSome = true) : e.Serves := by
  have slot : e.slot.isSome = true := by
    rw [Option.isSome_iff_ne_none]
    intro hs
    obtain ⟨hattempt, -, -, -, hfailed⟩ := h.of_noSlot hs
    simp [hattempt, hfailed] at hb
  refine ⟨?_, h.next_none (Option.isSome_iff_ne_none.mp slot), slot, ?_, fun c hc => h.unused hc, fun c => h.slot_attempts,
    fun q => h.request_attempts, fun x => h.held_broadcast⟩
  · rcases hb with hb | hb
    · exact (h.attempt_iff.mp hb).2
    · obtain ⟨o, ho⟩ := Option.isSome_iff_exists.mp hb
      exact h.enabled (by simp [(h.of_failed ho).1])
  · cases hq : e.request with
    | some q => exact h.of_request (by simp [hq])
    | none =>
      cases ho : e.slot.any (·.isOpen) with
      | false => rfl
      | true =>
        obtain ⟨hattempt, -, hfailed⟩ := h.of_open ho hq
        simp [hattempt, hfailed] at hb

theorem makes (h : e.Legal) {a : Attempt} (ha : e.attempt = some a) : e.Makes a where
  toServes := h.serves (by simp [ha])
  attempt := ha
  failed := by
    cases hf : e.failed with
    | none => rfl
    | some o =>
      have := (h.attempt_iff.mp (by simp [ha])).1
      simp [Engine.inFlight, (h.of_failed hf).1] at this
  carries := h.exchange ha

theorem inFlight (h : e.Legal) {a : Attempt} (ha : e.attempt = some a) : e.inFlight = true := (h.attempt_iff.mp (by simp [ha])).1

end Engine.Legal

end Phases

end Sys2Proof.Machine
end

section
/-! What the ends of slots, requests and attempts make of a line's engine, and that a legal engine stays legal (sections 4.5 to 4.7). -/

namespace Sys2Proof.Machine

/-! ## Engines after an end -/

section Ends

variable {s : State} {l : Line} {c : Slot} {q : Request}

theorem leaveSlot_engine (o : Outcome) (hc : (s.engine l).slot = some c) :
    (leaveSlot l o s).engine l = { s.engine l with slot := none, snapshot := none } := by
  rw [leaveSlot_slot o hc, State.setEngine_same]

theorem returnHeld_engine (l : Line) (s : State) : (returnHeld l s).engine l = { s.engine l with held := none } := by
  rw [returnHeld, dropHeld, State.setEngine_same]; rfl

theorem publishHeld_engine (l : Line) (c : Slot) (a : Attempt) (s : State) :
    (publishHeld l c a s).engine l = { s.engine l with held := none } := by
  unfold publishHeld
  split
  · next b m _ _ =>
    have published : (publishInto m b (writeHeader l b a c.entry.label s)).engine l = s.engine l := writeHeader_engine ..
    rw [dropHeld, State.setEngine_same, published]
  · exact returnHeld_engine l s

/-- The end of a slot leaves its engine without slot, snapshot and buffer (R74 to R76). -/
theorem finishSlot_engine (o : Outcome) (a : Option Attempt) (hc : (s.engine l).slot = some c) :
    (finishSlot l o a s).engine l = { s.engine l with slot := none, snapshot := none, held := none } := by
  have reported : ∀ s1 : State, s1.engine l = { s.engine l with held := none } →
      (leaveSlot l o (if c.kindSent = kindBroadcast then s1 else reportSlot l c.entry.station (c.report o a) s1)).engine l =
        { s.engine l with slot := none, snapshot := none, held := none } := by
    intro s1 h1
    generalize hu : (if c.kindSent = kindBroadcast then s1 else reportSlot l c.entry.station (c.report o a) s1) = u
    have h2 : u.engine l = { s.engine l with held := none } := by
      rw [← hu]
      split
      · exact h1
      · rw [reportSlot_engine, h1]
    rw [leaveSlot_engine (c := c) o (by rw [h2]; exact hc), h2]
  simp only [finishSlot, hc]
  apply reported
  split
  · exact publishHeld_engine ..
  · exact returnHeld_engine ..

/-- The engine whose request is done, in an OPEN slot with this much time remaining for each context it might be (R63, R136). -/
def Engine.released (e : Engine) (remaining : Slot → Nat) : Engine :=
  { e with request := none, held := none, slot := e.slot.map fun c => { c with carried := decide (remaining c = 0) } }

theorem timeRemaining_timer {s t : State} (h : t.timer = s.timer) : timeRemaining t = timeRemaining s := by
  funext c
  rw [timeRemaining, timeRemaining, h]

theorem leaveRequest_engine (l : Line) (s : State) : (leaveRequest l s).engine l = (s.engine l).released (timeRemaining s) := by
  rw [leaveRequest_eq, State.setEngine_same]; rfl

/-- The completion of a request leaves its engine without request and buffer (R136). -/
theorem completeRequest_engine (o : Outcome) (a : Option Attempt) (hq : (s.engine l).request = some q) :
    (completeRequest l o a s).engine l = (s.engine l).released (timeRemaining s) := by
  have appended : ∀ s1 : State, s1.engine l = s.engine l → s1.timer = s.timer → ∀ d : Event,
      let reported := if o = .notReady ∨ o = .aborted then (s1, []) else applyReport l q.desc.station (q.report o a) s1
      let appends := anyPlace reported.1 (Append.reserved l d) (reported.2.map .plain)
      (leaveRequest l (appends.2.appendAll appends.1)).engine l = (s.engine l).released (timeRemaining s) := by
    intro s1 he ht d reported appends
    have engine : reported.1.engine l = s1.engine l ∧ reported.1.timer = s1.timer := by
      by_cases silent : o = .notReady ∨ o = .aborted
      · rw [show reported = (s1, []) from if_pos silent]
        exact ⟨rfl, rfl⟩
      · rw [show reported = applyReport l q.desc.station (q.report o a) s1 from if_neg silent]
        exact ⟨applyReport_engine .., (applyReport_lineFrame ..).timer⟩
    obtain ⟨engine, timer⟩ := engine
    have timer : appends.2.timer = s.timer := ((anyPlace_lineFrame l reported.1 _ _).timer.trans timer).trans ht
    rw [leaveRequest_engine, State.appendAll_engine, anyPlace_engine, engine, he,
      timeRemaining_timer (t := appends.2.appendAll appends.1) timer]
  simp only [completeRequest, hq]
  apply appended
  · split
    · exact writeHeader_engine ..
    · rfl
  · split
    · exact (writeHeader_lineFrame l _ _ _ s).timer
    · rfl

end Ends

/-! ## Slots whose marks change -/

/-- What a slot context is judged by is as it was. -/
def Slot.Alike (c c' : Slot) : Prop :=
  c'.entry = c.entry ∧ c'.attempts = c.attempts ∧ c'.resync = c.resync ∧ c'.arrival = c.arrival ∧ c'.afterBoundary = c.afterBoundary

theorem Slot.Alike.exchange {c c' : Slot} (h : c.Alike c') (n : Option Snapshot) : c'.exchange n = c.exchange n := by
  obtain ⟨hentry, -, hresync, -⟩ := h
  simp only [Slot.exchange, Slot.kindSent, hentry, hresync]

theorem Slot.Alike.isOpen {c c' : Slot} (h : c.Alike c') : c'.isOpen = c.isOpen := by
  rw [Slot.isOpen, Slot.isOpen, h.1]

theorem Slot.Alike.unused {c c' : Slot} (h : c.Alike c') (hu : c.Unused) : c'.Unused := by
  obtain ⟨-, hattempts, hresync, harrival, hafter⟩ := h
  simpa only [Slot.Unused, hattempts, hresync, harrival, hafter] using hu

section Ended

variable {e : Engine}

/-- An idle engine that leaves its slot rests. -/
theorem Engine.Idles.left (h : e.Idles) (hn : e.next = none) : Engine.Rests { e with slot := none, snapshot := none } :=
  { h with slot := nofun, snapshot := rfl, next := fun hs => by simp [hn] at hs }

/-- A resting engine that leaves its slot, OPEN if it has one. -/
theorem Engine.Rests.left (h : e.Rests) (hn : e.next = none) : Engine.Rests { e with slot := none, snapshot := none } :=
  h.toIdles.left hn

/-- A resting engine whose OPEN slot gets other marks. -/
theorem Engine.Rests.remarked {c c' : Slot} (h : e.Rests) (hc : e.slot = some c) (hl : c.Alike c') :
    Engine.Rests { e with slot := some c' } := by
  have hn : e.next = none := by
    cases hn : e.next with
    | none => rfl
    | some r => simpa [hc] using (h.next (by simp [hn])).2.1
  refine { h with slot := ?_, next := fun hs => by simp [hn] at hs }
  rintro _ ⟨rfl⟩
  obtain ⟨ho, hu⟩ := h.slot c hc
  exact ⟨hl.isOpen.trans ho, hl.unused hu⟩

/-- An engine that served a request rests once that is done (R72, R136). -/
theorem Engine.Serves.released (h : e.Serves) (hq : e.request.isSome = true) (hs : e.state = .wait ∨ e.state = .gap) (htx : e.tx = none)
    (ha : e.attempt = none) (hf : e.failed = none) (remaining : Slot → Nat) : (e.released remaining).Rests := by
  obtain ⟨c, hc⟩ := Option.isSome_iff_exists.mp h.slot
  have ho : c.isOpen = true := by simpa [hc, hq] using h.opened
  obtain ⟨hu, hsnapshot⟩ := h.unused c hc ho
  refine ⟨⟨h.enabled, hs, htx, ha, rfl, rfl, hf⟩, fun c' hc' => ?_, hsnapshot, fun hn => ?_⟩
  · simp only [Engine.released, hc, Option.map_some, Option.some.injEq] at hc'
    subst hc'
    exact ⟨ho, hu⟩
  · have : (e.released remaining).next = none := h.next
    simp [this] at hn

/-- An engine that served a slot rests once that is done (R72, R76). -/
theorem Engine.Serves.finished (h : e.Serves) (hq : e.request = none) (hs : e.state = .wait ∨ e.state = .gap) (htx : e.tx = none)
    (ha : e.attempt = none) (hf : e.failed = none) : Engine.Rests { e with slot := none, snapshot := none, held := none } :=
  Engine.Idles.left (e := { e with held := none }) ⟨h.enabled, hs, htx, ha, rfl, hq, hf⟩ h.next

end Ended

/-! ## The end of an attempt (R72 to R75) -/

section Attempts

variable {s : State} {l : Line} {a : Attempt} {o : Outcome}

/-- The exchange of an engine is its slot's and its request's, its snapshot and buffer theirs. -/
theorem Engine.Serves.of_eq {e e' : Engine} (h : e.Serves) (hd : e'.disabling = e.disabling) (hn : e'.next = e.next)
    (hslot : e'.slot = e.slot) (hq : e'.request = e.request) (hsnapshot : e'.snapshot = e.snapshot) (hheld : e'.held = e.held) :
    e'.Serves := by
  have hx : e'.exchange = e.exchange := by simp only [Engine.exchange, hslot, hq, hsnapshot]
  obtain ⟨enabled, next, slot, opened, unused, slotAttempts, requestAttempts, held⟩ := h
  constructor <;> simp only [hd, hn, hslot, hq, hsnapshot, hheld, hx] <;> assumption

theorem endAttempt_legal (h : (s.engine l).Makes a) (ho : o.Failed ∨ o = .ok ∨ o = .refused) :
    ((endAttempt l o s).engine l).Legal := by
  rcases ho with ho | ho
  · rw [endAttempt_failed h.attempt ho]
    dsimp only
    have same : (if a.kind = kindBroadcast then s else reportAttempt l a.station o s).engine l = s.engine l := by
      split
      · rfl
      · exact reportAttempt_engine ..
    rw [State.setEngine_same, same]
    exact Engine.Serves.legal_failed (h.toServes.of_eq rfl rfl rfl rfl rfl rfl) rfl rfl rfl rfl ho
  · rw [endAttempt_good h.attempt ho]
    dsimp only
    generalize ht : s.setEngine l { s.engine l with state := .gap, attempt := none, tx := none, elapsed := 0, failed := none } = t
    have he : t.engine l = { s.engine l with state := .gap, attempt := none, tx := none, elapsed := 0, failed := none } := by
      rw [← ht, State.setEngine_same]
    have serves : (t.engine l).Serves := by rw [he]; exact h.toServes.of_eq rfl rfl rfl rfl rfl rfl
    have hq : (t.engine l).request = (s.engine l).request := by rw [he]
    have idle : (t.engine l).state = .gap ∧ (t.engine l).tx = none ∧ (t.engine l).attempt = none ∧ (t.engine l).failed = none := by
      rw [he]; exact ⟨rfl, rfl, rfl, rfl⟩
    obtain ⟨hs, htx, ha, hf⟩ := idle
    rw [← hq]
    cases hr : (t.engine l).request with
    | some q =>
      rw [if_pos Option.isSome_some, completeRequest_engine o _ hr]
      exact (serves.released (by simp [hr]) (.inr hs) htx ha hf _).legal
    | none =>
      obtain ⟨c, hc⟩ := Option.isSome_iff_exists.mp serves.slot
      rw [if_neg (by simp), finishSlot_engine o _ hc]
      exact (serves.finished hr (.inr hs) htx ha hf).legal

end Attempts

end Sys2Proof.Machine
end

section
/-! A legal engine stays legal under its traffic: characters sent and received, edges, windows, gaps and waits (sections 4.5 and 4.7). -/

namespace Sys2Proof.Machine

/-! ## What a judgement can be (R9, R10) -/

/-- A judgement that ends the attempt does so with an outcome of an attempt (R9, R10, R73). -/
def Judgement.Judges (j : Judgement) : Prop :=
  match j with
  | .more _ _ => True
  | .failed o => o.Failed
  | .whole o _ => o.Failed ∨ o = .ok ∨ o = .refused

theorem judgeHead_judges (a : Attempt) (c : RxChar) : (judgeHead a c).Judges := by
  unfold judgeHead
  split
  · simp [Judgement.Judges, Outcome.Failed]
  · split
    · simp [Judgement.Judges, Outcome.Failed]
    · trivial

theorem judgeWhole_judges (a : Attempt) (r r' : Reply) (low : Byte) : (Judgement.whole (judgeWhole a r low) r').Judges := by
  unfold judgeWhole
  split
  · simp [Judgement.Judges, Outcome.Failed]
  · split
    · simp [Judgement.Judges, Outcome.Failed]
    · split <;> simp [Judgement.Judges]

theorem judgeNext_judges (a : Attempt) (r : Reply) (c : RxChar) : (judgeNext a r c).Judges := by
  unfold judgeNext
  split
  · simp [Judgement.Judges, Outcome.Failed]
  · split
    · unfold judgeKind
      dsimp only
      split
      · trivial
      · simp [Judgement.Judges, Outcome.Failed]
    · unfold judgeLength
      split
      · simp [Judgement.Judges, Outcome.Failed]
      · trivial
    · trivial
    · trivial
    · exact judgeWhole_judges ..

/-! ## Engines in flight -/

section Flight

variable {e : Engine} {a a' : Attempt}

/-- The engine goes on with its attempt: slot, request, snapshot and buffer stay, and the attempt carries what it did. -/
theorem Engine.Makes.goesOn {e' : Engine} (h : e.Makes a) (serves : e'.Serves) (hx : e'.exchange = e.exchange)
    (hf : e'.failed = e.failed) (ha : e'.attempt = some a')
    (hc : a'.station = a.station ∧ a'.kind = a.kind ∧ a'.replyWindow = a.replyWindow ∧ a'.expected = a.expected) : e'.Makes a' := by
  refine ⟨serves, ha, hf.trans h.failed, ?_⟩
  obtain ⟨x, hex, hcarries⟩ := h.carries
  refine ⟨x, hx.trans hex, ?_⟩
  obtain ⟨hstation, hkind, hwindow, hexpected⟩ := hc
  simpa only [Attempt.Carries, hstation, hkind, hwindow, hexpected] using hcarries

/-- An attempt that carries the same goes on in a state in flight, with its transmitter and its receiver as they come. -/
theorem Engine.Makes.updated (h : e.Makes a) (a' : Attempt)
    (hc : a'.station = a.station ∧ a'.kind = a.kind ∧ a'.replyWindow = a.replyWindow ∧ a'.expected = a.expected)
    (state : EngineState) (tx : Option TxChar) (elapsed : Nat) :
    Engine.Makes { e with state := state, tx := tx, elapsed := elapsed, attempt := some a' } a' :=
  h.goesOn (h.toServes.of_eq rfl rfl rfl rfl rfl rfl) rfl rfl rfl hc

/-- A character that the receiver begins, drops or completes changes nothing that a legal engine is judged by, unless the line is OFF
(R3). -/
theorem Engine.Legal.withReceiver (h : e.Legal) (rx : Receiver) (idle : Nat) (hs : e.state ≠ .off ∨ rx.char = none) :
    Engine.Legal { e with rx := rx, idle := idle } := by
  obtain ⟨h1, h2, h3, h4, h5, h6, h7, h8, h9, h10, h11, h12, h13, h14, h15, h16, h17, h18, h19, h20, -⟩ := h
  exact ⟨h1, h2, h3, h4, h5, h6, h7, h8, h9, h10, h11, h12, h13, h14, h15, h16, h17, h18, h19, h20,
    fun hoff => hs.resolve_left (not_not_intro hoff)⟩

/-- The arrival of a reply's head (R69). -/
theorem Engine.Serves.arrive (h : e.Serves) (p : Capture) : (e.arrive p).Serves ∧ (e.arrive p).exchange = e.exchange := by
  cases hq : e.request with
  | some q =>
    have slot : (e.arrive p).slot = e.slot := by rw [Engine.arrive_slot, if_pos (by simp [hq])]
    exact ⟨h.of_eq rfl rfl slot rfl rfl rfl, by simp only [Engine.exchange, slot]; rfl⟩
  | none =>
    obtain ⟨c, hc⟩ := Option.isSome_iff_exists.mp h.slot
    have closed : c.isOpen = false := by simpa [hc, hq] using h.opened
    have slot := e.arrive_slot p
    rw [if_neg (by simp [hq]), hc, Option.map_some] at slot
    generalize hc' : ({ c with arrival := p.value, afterBoundary := decide (p.cycle ≠ c.cycle ∨ p.stopped = true) } : Slot) = c' at slot
    have request : (e.arrive p).request = none := hq
    have exchange : (e.arrive p).exchange = e.exchange := by
      simp only [Engine.exchange, request, hq, slot, hc, Option.map_some, ← hc']
      rfl
    have closed' : c'.isOpen = false := by rw [← hc']; exact closed
    refine ⟨⟨h.enabled, h.next, by simp [slot], by simp [slot, request, closed'], fun x hx ho => ?_, fun x hx => ?_,
      fun q hq' => by simp [request] at hq', fun x hx hk => h.held x (exchange ▸ hx) hk⟩, exchange⟩
    · obtain rfl : c' = x := Option.some.inj (slot.symm.trans hx)
      simp [closed'] at ho
    · obtain rfl : c' = x := Option.some.inj (slot.symm.trans hx)
      have := h.slotAttempts c hc
      rw [← hc']
      exact this

end Flight

/-! ## Sending (R13, R67, R68) -/

section Traffic

variable {s : State} {l : Line} {a : Attempt}

theorem characterSent_legal (h : (s.engine l).Legal) : ((characterSent l s).engine l).Legal := by
  by_cases hs : (s.engine l).state = .transmit
  swap
  · rw [characterSent_outside hs]; exact h
  cases hd : (s.engine l).disabling with
  | true => rw [characterSent_disabling hs hd, State.setEngine_same]; exact Engine.turnOff_legal _
  | false =>
    obtain ⟨a, ha⟩ := Option.isSome_iff_exists.mp (h.attempt_iff.mpr ⟨by simp [Engine.inFlight, hs], hd⟩)
    have makes := h.makes ha
    have unanswered : a.reply = none := h.of_transmit ha hs
    by_cases hg : (s.engine l).echoCheck = false ∨ EchoGood a
    · rw [characterSent_goesOn hs hd ha hg]
      split
      · rw [nextCharacter, State.setEngine_same]
        exact Engine.Makes.legal (makes.updated { a with sent := a.sent + 1, echo := none } ⟨rfl, rfl, rfl, rfl⟩ _ _ _)
          (h.inFlight ha) (by simp [hs]) (fun hn => absurd hs hn) (fun hn => by simp [hs] at hn) (fun hn => by simp [hs] at hn)
          fun _ => unanswered
      · unfold frameSent
        split
        · exact endAttempt_legal makes (.inr (.inl rfl))
        · next hk =>
          rw [State.setEngine_same]
          exact Engine.Makes.legal (makes.updated { a with sent := a.sent + 1, echo := none } ⟨rfl, rfl, rfl, rfl⟩ _ _ _) rfl
            (by simp) (fun _ => hk) nofun nofun nofun
    · obtain ⟨he, hg⟩ := not_or.mp hg
      rw [characterSent_conflict hs hd ha (by simpa using he) hg]
      exact endAttempt_legal makes (.inl (by simp [Outcome.Failed]))

/-! ## The receiver (R3, R8, R9, R69 to R71) -/

theorem startEdge_legal (h : (s.engine l).Legal) : ((startEdge l s).engine l).Legal := by
  unfold startEdge
  dsimp only
  split
  · exact h
  · next hseen =>
    rw [State.setEngine_same]
    exact h.withReceiver _ _ (.inl fun hoff => hseen (.inl hoff))

theorem rxReturned_legal (h : (s.engine l).Legal) : ((rxReturned l s).engine l).Legal := by
  unfold rxReturned
  dsimp only
  split
  · exact h
  · next hoff => rw [State.setEngine_same]; exact h.withReceiver _ _ (.inl hoff)

theorem countStray_legal (h : (s.engine l).Legal) : ((countStray l s).engine l).Legal := by
  rw [countStray, State.setEngine_same]; exact h

theorem enterQuiet_legal {o : Outcome} (h : (s.engine l).Makes a) (htx : (s.engine l).tx = none) (hk : a.kind ≠ kindBroadcast)
    (ho : o.Failed) : ((enterQuiet l o a s).engine l).Legal := by
  rw [enterQuiet, State.setEngine_same]
  exact Engine.Makes.legal (h.updated { a with judged := some o } ⟨rfl, rfl, rfl, rfl⟩ _ _ _) rfl (by simp [htx]) (fun _ => hk) nofun
    (fun _ => ⟨o, rfl, ho⟩) nofun

/-- What follows a judgement keeps the engine legal, the arrival being kept (R69, R70). -/
theorem applyJudgement_legal {j : Judgement} (h : (s.engine l).Makes a) (htx : (s.engine l).tx = none) (hk : a.kind ≠ kindBroadcast)
    (harrival : a.arrival.isSome = true) (hj : j.Judges) : ((applyJudgement l a j s).engine l).Legal := by
  cases j with
  | more r store =>
    rw [applyJudgement, storePayload_engine, State.setEngine_same]
    exact Engine.Makes.legal (h.updated { a with reply := some r } ⟨rfl, rfl, rfl, rfl⟩ _ _ _) rfl (by simp [htx]) (fun _ => hk)
      (fun _ => ⟨rfl, harrival⟩) nofun nofun
  | failed o => exact enterQuiet_legal h htx hk hj
  | whole o r =>
    rw [applyJudgement]
    refine endAttempt_legal (a := { a with reply := some r }) ?_ hj
    rw [State.setEngine_same]
    exact h.updated { a with reply := some r } ⟨rfl, rfl, rfl, rfl⟩ _ _ _

theorem awaitCharacter_legal (p : RxProgress) (c : RxChar) (h : (s.engine l).Legal) (hs : (s.engine l).state = .await)
    (ha : (s.engine l).attempt = some a) : ((awaitCharacter l p c a s).engine l).Legal := by
  have makes := h.makes ha
  unfold awaitCharacter
  split
  · rw [headFound_judged p.capture c ha]
    obtain ⟨serves, exchange⟩ := makes.toServes.arrive p.capture
    have hk : a.kind ≠ kindBroadcast := h.ne_broadcast ha (by simp [hs])
    refine applyJudgement_legal ?_ ?_ hk rfl (judgeHead_judges ..)
    · rw [State.setEngine_same]
      exact makes.goesOn serves exchange rfl (by simp [Engine.arrive, ha]) ⟨rfl, rfl, rfl, rfl⟩
    · rw [State.setEngine_same]
      exact h.tx_none (by simp [hs])
  · split
    · exact endAttempt_legal ((countStray_legal h).makes (by rw [countStray, State.setEngine_same]; exact ha)) (.inl (.inl rfl))
    · exact countStray_legal h

theorem handleCharacter_legal (p : RxProgress) (c : RxChar) (h : (s.engine l).Legal) : ((handleCharacter l p c s).engine l).Legal := by
  unfold handleCharacter
  split
  · exact countStray_legal h
  · exact countStray_legal h
  · next a hs ha =>
    have unanswered : a.reply = none := h.of_transmit ha hs
    unfold echoCharacter
    split
    · rw [State.setEngine_same]
      exact Engine.Makes.legal ((h.makes ha).updated { a with echo := some c } ⟨rfl, rfl, rfl, rfl⟩ _ _ _) (h.inFlight ha) h.tx_iff
        (fun hn => absurd hs hn) (fun hn => by simp [hs] at hn) (fun hn => by simp [hs] at hn) fun _ => unanswered
    · exact h
  · next a hs ha => exact awaitCharacter_legal p c h hs ha
  · next a hs ha =>
    unfold replyCharacter
    split
    · exact applyJudgement_legal (h.makes ha) (h.tx_none (by simp [hs])) (h.ne_broadcast ha (by simp [hs])) (h.of_receive ha hs).2
        (judgeNext_judges ..)
    · exact h
  · exact h

theorem completeCharacter_legal (c : RxChar) (h : (s.engine l).Legal) : ((completeCharacter l c s).engine l).Legal := by
  unfold completeCharacter
  split
  · exact h
  · exact handleCharacter_legal _ c (by rw [State.setEngine_same]; exact h.withReceiver _ _ (.inr rfl))

theorem falseStart_legal (h : (s.engine l).Legal) : ((falseStart l s).engine l).Legal := by
  generalize ht : s.setEngine l { s.engine l with rx := { prev := some true, char := none } } = t
  have he : t.engine l = { s.engine l with rx := { prev := some true, char := none } } := by rw [← ht, State.setEngine_same]
  have dropped : (t.engine l).Legal := by rw [he]; exact h.withReceiver _ _ (.inr rfl)
  unfold falseStart
  dsimp only
  split
  · exact h
  · rw [ht]
    split
    · next a hs ha =>
      split
      · exact endAttempt_legal (dropped.makes (by rw [he]; exact ha)) (.inl (.inl rfl))
      · exact dropped
    · exact dropped

/-! ## Windows, gaps and waits (R8, R9, R11) -/

theorem windowExpiry_legal (h : (s.engine l).Legal) : ((windowExpiry l s).engine l).Legal := by
  unfold windowExpiry
  dsimp only
  split
  · next a hs ha =>
    have makes := h.makes ha
    have hk : (s.engine l).state ≠ .transmit → a.kind ≠ kindBroadcast := h.ne_broadcast ha
    split
    · rw [State.setEngine_same]
      exact Engine.Makes.legal (makes.updated { a with windowOver := true } ⟨rfl, rfl, rfl, rfl⟩ _ _ _) (h.inFlight ha) h.tx_iff
        hk (fun hn => by simp [hs] at hn) (fun hn => by simp [hs] at hn) fun hn => by simp [hs] at hn
    · exact endAttempt_legal makes (.inl (.inl rfl))
  · exact h

theorem charGapExpiry_legal (h : (s.engine l).Legal) : ((charGapExpiry l s).engine l).Legal := by
  unfold charGapExpiry
  dsimp only
  split
  · next a hs ha =>
    split
    · exact h
    · exact enterQuiet_legal (h.makes ha) (h.tx_none (by simp [hs])) (h.ne_broadcast ha (by simp [hs])) (by simp [Outcome.Failed])
  · exact h

theorem endQuiet_legal (h : (s.engine l).Legal) : ((endQuiet l s).engine l).Legal := by
  unfold endQuiet
  dsimp only
  split
  · next a hs ha =>
    obtain ⟨o, hj, ho⟩ := h.of_quiet ha hs
    rw [hj]
    exact endAttempt_legal (h.makes ha) (.inl ho)
  · exact h

end Traffic

end Sys2Proof.Machine
end

section
/-! A legal engine stays legal along its walk: slots begun and left, attempts begun, frame gaps, OPEN slots, notices, acyclic starts, and
LINE_ENABLE and LINE_DISABLE (sections 4.2 to 4.6 and 8.4). -/

namespace Sys2Proof.Machine

/-! ## Engines that begin an attempt (R67, R135) -/

section Beginning

variable {e : Engine} {x : Exchange} {c : Slot}

/-- An engine that serves an exchange counts an attempt of it while attempts are left (R67, R73). -/
theorem Engine.Serves.counted (h : e.Serves) (hx : e.exchange = some x) (room : e.attempts ≤ x.retryLimit.toNat) :
    e.countAttempt.Serves ∧ e.countAttempt.exchange = some x := by
  cases hq : e.request with
  | some q =>
    obtain rfl : q.exchange = x := Option.some.inj (by simpa [Engine.exchange, hq] using hx)
    have counted : e.countAttempt = { e with request := some { q with attempts := q.attempts + 1 } } := by
      simp only [Engine.countAttempt, hq]
    rw [counted]
    have hlimit : q.attempts ≤ q.desc.retryLimit.toNat := by rwa [Engine.attempts, hq] at room
    refine ⟨⟨h.enabled, h.next, h.slot, h.opened.trans (by simp [hq]), h.unused, h.slotAttempts, ?_, ?_⟩, rfl⟩
    · rintro _ ⟨rfl⟩
      exact Nat.succ_le_succ hlimit
    · rintro _ ⟨rfl⟩
      exact h.held _ hx
  | none =>
    obtain ⟨c, hc⟩ := Option.isSome_iff_exists.mp h.slot
    have closed : c.isOpen = false := by simpa [hc, hq] using h.opened
    obtain rfl : c.exchange e.snapshot = x := Option.some.inj (by simpa [Engine.exchange, hq, hc] using hx)
    have counted : e.countAttempt = { e with slot := some { c with attempts := c.attempts + 1 } } := by
      simp only [Engine.countAttempt, hq, hc, Option.map_some]
    have closed' : Slot.isOpen { c with attempts := c.attempts + 1 } = false := closed
    have exchange : e.countAttempt.exchange = some (c.exchange e.snapshot) := by simp [counted, Engine.exchange, hq]; rfl
    refine ⟨?_, exchange⟩
    have hlimit : c.attempts ≤ c.entry.retryLimit.toNat := by rwa [Engine.attempts, hq, hc] at room
    refine ⟨by rw [counted]; exact h.enabled, by rw [counted]; exact h.next, by rw [counted]; rfl, ?_, ?_, ?_, ?_, ?_⟩
    · rw [counted]; simp [hq, closed']
    · rw [counted]
      rintro _ ⟨rfl⟩ ho
      simp [closed'] at ho
    · rw [counted]
      rintro _ ⟨rfl⟩
      exact Nat.succ_le_succ hlimit
    · rw [counted]
      exact fun q hq' => by simp [hq] at hq'
    · intro y hy hk
      rw [counted]
      exact h.held y (hx.trans (exchange.symm.trans hy)) hk

/-- An attempt of the exchange under way begins (R67). -/
theorem Engine.Serves.transmit_legal (h : e.Serves) (hx : e.exchange = some x) (room : e.attempts ≤ x.retryLimit.toNat) (seqBit : Bool) :
    (e.transmit x seqBit).Legal := by
  obtain ⟨serves, exchange⟩ := h.counted hx room
  have kept : (e.transmit x seqBit).Serves := serves.of_eq rfl rfl rfl rfl rfl rfl
  have makes : (e.transmit x seqBit).Makes
      { station := x.station, kind := x.kind, seqBit := seqBit, expected := x.expected, replyWindow := x.replyWindow
        frame := requestFrame x.station x.kind seqBit x.payload, sent := 0, echo := none, windowOver := false
        arrival := none, reply := none, judged := none } :=
    ⟨kept, rfl, rfl, x, exchange, rfl, rfl, rfl, rfl⟩
  exact makes.legal rfl (by simp [Engine.transmit]) (fun hn => absurd rfl hn) nofun nofun fun _ => rfl

theorem Engine.Serves.exchange_isSome (h : e.Serves) : ∃ x, e.exchange = some x := by
  obtain ⟨c, hc⟩ := Option.isSome_iff_exists.mp h.slot
  cases hq : e.request <;> simp [Engine.exchange, hq, hc]

/-- An idle engine that enters a slot of traffic serves it, whatever snapshot it takes (R64, R65). -/
theorem Engine.Idles.serve (h : e.Idles) (hn : e.next = none) (hc : e.slot = some c) (closed : c.isOpen = false)
    (fresh : c.attempts = 0) : e.Serves := by
  refine ⟨h.enabled, hn, by simp [hc], by simp [hc, closed, h.request], fun c' hc' ho => ?_, fun c' hc' => ?_,
    fun q hq => by simp [h.request] at hq, fun _ _ _ => h.held⟩
  · obtain rfl : c = c' := Option.some.inj (hc.symm.trans hc')
    simp [closed] at ho
  · obtain rfl : c = c' := Option.some.inj (hc.symm.trans hc')
    omega

/-- A buffer taken for what awaits a reply (R66, R135). -/
theorem Engine.Serves.withHeld (h : e.Serves) (b : Option (Fin 72))
    (hb : ∀ x, e.exchange = some x → x.kind = kindBroadcast → b = none) : Engine.Serves { e with held := b } :=
  ⟨h.enabled, h.next, h.slot, h.opened, h.unused, h.slotAttempts, h.requestAttempts, hb⟩

end Beginning

/-! ## Slots begun (R61 to R67, R84) -/

section Walk

variable {s : State} {l : Line} {c : Slot}

theorem beginAttempt_legal {x : Exchange} (h : (s.engine l).Serves) (hx : (s.engine l).exchange = some x)
    (room : (s.engine l).attempts ≤ x.retryLimit.toNat) : ((beginAttempt l s).engine l).Legal := by
  simp only [beginAttempt, hx, State.setEngine_same]
  exact h.transmit_legal hx room _

theorem takeBuffer_engine (l : Line) (w : TakeFor) (s : State) :
    ∃ b, (takeBuffer l w s).engine l = { s.engine l with held := b } := by
  cases hf : s.pool.free with
  | nil => exact ⟨(s.engine l).held, by rw [takeBuffer_miss l w hf]; rfl⟩
  | cons b rest => exact ⟨some b, by rw [takeBuffer_free l w hf, State.setEngine_same]⟩

theorem takeSnapshot_engine (l : Line) (c : Slot) (s : State) :
    ∃ n, (takeSnapshot l c s).engine l = { s.engine l with snapshot := n } := by
  unfold takeSnapshot
  split
  · exact ⟨_, State.setEngine_same ..⟩
  · exact ⟨_, rfl⟩

/-- A slot takes a buffer only for what awaits a reply (R66). -/
theorem takeForSlot_engine (l : Line) (c : Slot) (s : State) :
    ∃ b, (takeForSlot l c s).engine l = { s.engine l with held := b } ∧ (c.kindSent = kindBroadcast → b = (s.engine l).held) := by
  unfold takeForSlot
  split
  · next h =>
    obtain ⟨b, hb⟩ := takeBuffer_engine l { station := c.entry.station, cycle := c.cycle, index := BitVec.ofNat 8 c.index.val, tag := 0 } s
    exact ⟨b, hb, fun hk => absurd hk h.2.1⟩
  · exact ⟨_, rfl, fun _ => rfl⟩

/-- The first attempt of a slot that begins (R65 to R67). -/
theorem sendSlot_legal (h : (s.engine l).Idles) (hn : (s.engine l).next = none) (hc : (s.engine l).slot = some c)
    (closed : c.isOpen = false) (fresh : c.attempts = 0) : ((sendSlot l c s).engine l).Legal := by
  obtain ⟨n, hsnapshot⟩ := takeSnapshot_engine l c s
  obtain ⟨b, hheld, hb⟩ := takeForSlot_engine l c (takeSnapshot l c s)
  have engine : (takeForSlot l c (takeSnapshot l c s)).engine l = { s.engine l with snapshot := n, held := b } := by
    rw [hheld, hsnapshot]
  have exchange : ((takeForSlot l c (takeSnapshot l c s)).engine l).exchange = some (c.exchange n) := by
    simp only [engine, Engine.exchange, h.request, hc, Option.map_some]
  have attempts : ((takeForSlot l c (takeSnapshot l c s)).engine l).attempts = 0 := by
    simp only [engine, Engine.attempts, h.request, hc, Option.map_some, Option.getD_some, fresh]
  refine beginAttempt_legal ?_ exchange (by omega)
  rw [engine]
  have serves : Engine.Serves { s.engine l with snapshot := n } :=
    Engine.Idles.serve ⟨h.enabled, h.state, h.tx, h.attempt, h.held, h.request, h.failed⟩ hn hc closed fresh
  refine serves.withHeld b fun x hx hk => ?_
  obtain rfl : c.exchange n = x := Option.some.inj (by simpa [Engine.exchange, h.request, hc] using hx)
  rw [hb hk, hsnapshot]
  exact h.held

/-- An idle engine that leaves the slot it just began, or an OPEN slot, rests. -/
theorem leaveSlot_rests (o : Outcome) (h : (s.engine l).Idles) (hn : (s.engine l).next = none) (hc : (s.engine l).slot.isSome = true) :
    ((leaveSlot l o s).engine l).Rests := by
  obtain ⟨c, hc⟩ := Option.isSome_iff_exists.mp hc
  rw [leaveSlot_engine o hc]
  exact h.left hn

theorem startStation_legal (h : (s.engine l).Idles) (hn : (s.engine l).next = none) (hc : (s.engine l).slot = some c)
    (closed : c.isOpen = false) (fresh : c.attempts = 0) : ((startStation l c s).engine l).Legal := by
  unfold startStation
  split
  · exact sendSlot_legal h hn hc closed fresh
  · next i _ =>
    dsimp only
    split
    · exact (leaveSlot_rests .skipped (s := s.setStation l i _) h hn (by simp [hc])).legal
    · exact sendSlot_legal (s := s.setStation l i _) h hn hc closed fresh
    · refine sendSlot_legal ?_ ?_ (by rw [State.setEngine_same]) closed fresh
      · rw [State.setEngine_same]
        exact ⟨h.enabled, h.state, h.tx, h.attempt, h.held, h.request, h.failed⟩
      · rw [State.setEngine_same]
        exact hn

/-- A slot begins in an engine that rests without one: squeezed, OPEN, or sent (R61 to R64). -/
theorem beginSlot_legal (n : Notice) (r : ReadEntry) (h : (s.engine l).Rests) : ((beginSlot l n r s).engine l).Legal := by
  obtain ⟨enabled, state, tx, attempt, held, request, failed⟩ := h.toIdles
  have idles : ((entered s l n r).engine l).Idles := by
    rw [entered_engine]
    exact ⟨enabled, state, tx, attempt, held, request, failed⟩
  have hn : ((entered s l n r).engine l).next = none := by rw [entered_engine]; rfl
  have hc : ((entered s l n r).engine l).slot = some (slotOf s n r false 0) := by rw [entered_engine]
  have isOpen : (slotOf s n r false 0).isOpen = (r.entry.kind == kindOpen) := rfl
  rw [beginSlot_eq]
  split
  · exact (leaveSlot_rests _ idles hn (by simp [hc])).legal
  · split
    · next ho =>
      refine (Engine.Rests.mk idles (fun c hc' => ?_) (by rw [entered_engine]; exact h.snapshot) (by simp [hn])).legal
      obtain rfl : slotOf s n r false 0 = c := Option.some.inj (hc.symm.trans hc')
      exact ⟨by simp [isOpen, ho], rfl, rfl, rfl, rfl⟩
    · next ho =>
      have closed : (slotOf s n r false 0).isOpen = false := by simp [isOpen, ho]
      split
      · exact sendSlot_legal idles hn hc closed rfl
      · exact startStation_legal idles hn hc closed rfl

theorem readNext_legal (h : (s.engine l).Legal) : ((readNext l s).engine l).Legal := by
  unfold readNext
  dsimp only
  split
  · next n hn =>
    split
    · next hw =>
      obtain ⟨hw, hs, hk⟩ := hw
      rw [State.setEngine_same]
      cases hr : s.schedule.entryRead s.timer.period l n (s.engine l).walk with
      | none => rw [← hk]; exact h
      | some r => exact h.keep hw hs hn r
    · exact h
  · exact h

theorem walkOn_legal (k : Nat) : ∀ s : State, (s.engine l).Legal → ((walkOn l k s).engine l).Legal := by
  induction k with
  | zero => exact fun s h => h
  | succ k ih =>
    intro s h
    have read := readNext_legal h
    unfold walkOn
    dsimp only
    split
    · next n r _ hr =>
      split
      · obtain ⟨hw, -⟩ := read.of_next (by simp [hr])
        exact ih _ (beginSlot_legal n r (read.rests (.inl hw)))
      · exact read
    · exact read

theorem slotBegin_legal (h : (s.engine l).Legal) : ((slotBegin l s).engine l).Legal := by
  unfold slotBegin
  dsimp only
  split
  · exact walkOn_legal _ s h
  · exact h

/-! ## OPEN slots, frame gaps and retries (R63, R72, R73) -/

/-- An OPEN slot ends where nothing is under way. -/
theorem openSlotOver_leaves (h : (s.engine l).Legal) (ho : openSlotOver l s = true) (o : Outcome) :
    ((leaveSlot l o s).engine l).Rests := by
  unfold openSlotOver at ho
  split at ho
  · next c hc =>
    simp only [Bool.and_eq_true, Bool.or_eq_true, beq_iff_eq, Option.isNone_iff_eq_none] at ho
    obtain ⟨⟨⟨⟨hopen, hq⟩, -⟩, -⟩, hs⟩ := ho
    obtain ⟨-, -, hf⟩ := h.of_open (by simp [hc, hopen]) hq
    exact leaveSlot_rests o (h.rests (hs.imp_right fun hg => ⟨hg, hf⟩)).toIdles (h.next_none (by simp [hc])) (by simp [hc])
  · exact absurd ho (by simp)

theorem openSlotEnd_legal (h : (s.engine l).Legal) : ((openSlotEnd l s).engine l).Legal := by
  unfold openSlotEnd
  split
  · next ho => exact readNext_legal (openSlotOver_leaves h ho .ok).legal
  · exact h

theorem afterGap_legal (h : (s.engine l).Rests) : ((afterGap l s).engine l).Legal := by
  unfold afterGap
  split
  · next c hc =>
    split
    · exact slotBegin_legal (leaveSlot_rests .ok h.toIdles (h.legal.next_none (by simp [hc])) (by simp [hc])).legal
    · rw [State.setEngine_same]
      exact (h.remarked (c' := { c with carried := false }) hc ⟨rfl, rfl, rfl, rfl, rfl⟩).legal
  · exact slotBegin_legal h.legal

/-- The retry decision of an engine back in WAIT (R73). -/
theorem retryDecision_legal (o : Outcome) (h : (s.engine l).Serves) (hs : (s.engine l).state = .wait) (htx : (s.engine l).tx = none)
    (ha : (s.engine l).attempt = none) (hf : (s.engine l).failed = none) : ((retryDecision l o s).engine l).Legal := by
  obtain ⟨x, hx⟩ := h.exchange_isSome
  obtain ⟨c, hc⟩ := Option.isSome_iff_exists.mp h.slot
  unfold retryDecision
  split
  · next allowed =>
    refine beginAttempt_legal h hx ?_
    simp only [retryAllowed, hx, hc, Bool.and_eq_true, decide_eq_true_eq] at allowed
    exact allowed.1
  · split
    · next q hq =>
      refine afterGap_legal ?_
      rw [completeRequest_engine o none hq]
      exact h.released (by simp [hq]) (.inl hs) htx ha hf _
    · next hq =>
      refine slotBegin_legal (Engine.Rests.legal ?_)
      rw [finishSlot_engine o none hc]
      exact h.finished hq (.inl hs) htx ha hf

theorem frameGapEnd_legal (h : (s.engine l).Legal) : ((frameGapEnd l s).engine l).Legal := by
  unfold frameGapEnd
  dsimp only
  split
  · next hs =>
    generalize ht : s.setEngine l { s.engine l with state := .wait, failed := none } = t
    have he : t.engine l = { s.engine l with state := .wait, failed := none } := by rw [← ht, State.setEngine_same]
    have htx : (s.engine l).tx = none := h.tx_none (by simp [hs])
    have ha : (s.engine l).attempt = none := by simpa [Engine.inFlight, hs] using h.attempt_iff
    split
    · next o hf =>
      have serves : (t.engine l).Serves := by
        rw [he]
        exact (h.serves (by simp [hf])).of_eq rfl rfl rfl rfl rfl rfl
      exact retryDecision_legal o serves (by rw [he]) (by rw [he]; exact htx) (by rw [he]; exact ha) (by rw [he])
    · next hf =>
      have rests := h.rests (.inr ⟨hs, hf⟩)
      refine afterGap_legal ?_
      rw [he]
      refine ⟨⟨rests.enabled, .inl rfl, htx, ha, rests.held, rests.request, rfl⟩, rests.slot, rests.snapshot, fun hn => ?_⟩
      exact absurd (rests.next hn).1 (by simp [hs])
  · exact h

/-! ## Acyclic starts (R131 to R135) -/

/-- A request starts where nothing is under way, in an OPEN slot (R131). -/
theorem startable_rests {d : Descriptor} (h : (s.engine l).Legal) (hd : startable l s = some (d, c)) :
    (s.engine l).Rests ∧ (s.engine l).state = .wait ∧ (s.engine l).slot = some c ∧ c.isOpen = true := by
  unfold startable at hd
  dsimp only at hd
  split at hd
  · split at hd
    · next hc _ hw =>
      obtain ⟨hw, ho, -⟩ := hw
      simp only [Option.some.injEq, Prod.mk.injEq] at hd
      obtain ⟨-, rfl⟩ := hd
      exact ⟨h.rests (.inl hw), hw, hc, ho⟩
    · simp at hd
  · simp at hd

/-- A resting engine in an OPEN slot takes up a request (R133). -/
theorem Engine.Rests.starts {e : Engine} (h : e.Rests) (hc : e.slot = some c) (q : Request) (fresh : q.attempts = 0) :
    Engine.Serves { e with request := some q } := by
  obtain ⟨ho, hu⟩ := h.slot c hc
  refine ⟨h.enabled, h.legal.next_none (by simp [hc]), by simp [hc], by simp [hc, ho], fun c' hc' _ => ⟨(h.slot c' hc').2, h.snapshot⟩,
    fun c' hc' => ?_, fun q' hq => ?_, fun _ _ _ => h.held⟩
  · obtain ⟨-, hattempts, -⟩ := h.slot c' hc'
    omega
  · obtain rfl : q = q' := Option.some.inj hq
    omega

theorem takeForRequest_engine (l : Line) (q : Request) (s : State) :
    ∃ b, (takeForRequest l q s).engine l = { s.engine l with held := b } ∧ (q.desc.kind = kindBroadcast → b = (s.engine l).held) := by
  unfold takeForRequest
  split
  · exact ⟨_, rfl, fun _ => rfl⟩
  · next hk =>
    obtain ⟨b, hb⟩ := takeBuffer_engine l { station := q.desc.station, cycle := q.cycle, index := 255, tag := q.desc.tag } s
    exact ⟨b, hb, fun hk' => absurd hk' hk⟩

theorem startAcyclic_legal (h : (s.engine l).Legal) : ((startAcyclic l s).engine l).Legal := by
  unfold startAcyclic
  split
  · exact h
  · next d c hd =>
    obtain ⟨rests, hw, hc, -⟩ := startable_rests h hd
    generalize hq : ({ desc := d, cycle := c.cycle, index := c.index, attempts := 0 } : Request) = q
    have attempts : q.attempts = 0 := by rw [← hq]
    have started : (startHead l d c s).engine l = { s.engine l with request := some q } := by
      rw [startHead, State.setEngine_same, ← hq]; rfl
    have serves := rests.starts hc q attempts
    dsimp only
    split
    · obtain ⟨b, hheld, hb⟩ := takeForRequest_engine l q (startHead l d c s)
      have engine : (takeForRequest l q (startHead l d c s)).engine l = { s.engine l with request := some q, held := b } := by
        rw [hheld, started]
      have exchange : ((takeForRequest l q (startHead l d c s)).engine l).exchange = some q.exchange := by rw [engine]; rfl
      refine beginAttempt_legal ?_ exchange ?_
      · rw [engine]
        refine serves.withHeld b fun x hx hk => ?_
        obtain rfl : q.exchange = x := Option.some.inj hx
        rw [hb hk, started]
        exact rests.held
      · rw [engine]
        simp [Engine.attempts, attempts]
    · rw [completeRequest_engine (q := q) .notReady none (by rw [started])]
      refine Engine.Rests.legal (Engine.Serves.released ?_ (by rw [started]; rfl) (.inl (by rw [started]; exact hw))
        (by rw [started]; exact rests.tx) (by rw [started]; exact rests.attempt) (by rw [started]; exact rests.failed) _)
      rw [started]
      exact serves

/-! ## Notices (R58, R59) -/

/-- A notice marks the slot in progress, and what the engine is judged by stands (R58, R60). -/
theorem Engine.takeNotice_slot (e : Engine) (n : Option Notice) :
    (e.takeNotice n).slot.isSome = e.slot.isSome ∧ (e.takeNotice n).slot.any (·.isOpen) = e.slot.any (·.isOpen)
      ∧ (e.takeNotice n).exchange = e.exchange ∧ ∀ c', (e.takeNotice n).slot = some c' → ∃ c, e.slot = some c ∧ c.Alike c' := by
  have slot : (e.takeNotice n).slot = e.slot.map fun c => { c with noticeHeld := false } := rfl
  have exchange : (e.takeNotice n).exchange = match e.request with
      | some q => some q.exchange
      | none => (e.takeNotice n).slot.map (·.exchange e.snapshot) := rfl
  rw [exchange, slot, Engine.exchange]
  cases e.slot with
  | none => exact ⟨rfl, rfl, rfl, nofun⟩
  | some c =>
    refine ⟨rfl, rfl, rfl, ?_⟩
    rintro _ ⟨rfl⟩
    exact ⟨c, rfl, rfl, rfl, rfl, rfl, rfl⟩

/-- A legal engine that takes a notice stays legal, its kept entry gone (R58). -/
theorem Engine.Legal.takeNotice {e : Engine} (h : e.Legal) (heard : e.deaf = false) (n : Option Notice) : (e.takeNotice n).Legal := by
  obtain ⟨isSome, any, exchange, slots⟩ := e.takeNotice_slot n
  obtain ⟨hoff, hdisabling⟩ : e.state ≠ .off ∧ e.disabling = false := by simpa [Engine.deaf] using heard
  obtain ⟨-, -, htx, hattempt, hslot, -, hrequest, hopen, hwait, hgap, hfailed, hexchange, hbroadcast, hreceive, hquiet,
    hslots, hrequests, hopens, hheld, htransmit, -⟩ := h
  refine ⟨fun hs => absurd hs hoff, fun hd => absurd (hdisabling.symm.trans hd) nofun, htx, hattempt, fun hs => hslot ?_, nofun,
    fun hq => any.trans (hrequest hq), fun ho => hopen (any.symm.trans ho), fun hs => ?_, fun hs hf => ?_, hfailed,
    fun a ha => by rw [exchange]; exact hexchange a ha, hbroadcast, hreceive, hquiet, fun c' hc' => ?_, hrequests,
    fun c' hc' ho => ?_, fun x hx => hheld x (exchange.symm.trans hx), htransmit, fun hs => absurd hs hoff⟩
  · rw [← Option.not_isSome_iff_eq_none, ← isSome, hs]
    nofun
  · rw [isSome, any]; exact hwait hs
  · rw [isSome, any]; exact hgap hs hf
  · obtain ⟨c, hc, hentry, hattempts, -⟩ := slots c' hc'
    rw [hentry, hattempts]
    exact hslots c hc
  · obtain ⟨c, hc, alike⟩ := slots c' hc'
    obtain ⟨h1, h2, h3, h4, hsnapshot⟩ := hopens c hc (alike.isOpen.symm.trans ho)
    obtain ⟨h1, h2, h3, h4⟩ := alike.unused ⟨h1, h2, h3, h4⟩
    exact ⟨h1, h2, h3, h4, hsnapshot⟩

theorem squeezeUnbegun_engine (l : Line) (s : State) : (squeezeUnbegun l s).engine l = s.engine l := by
  unfold squeezeUnbegun
  split <;> rfl

theorem takeNotice_legal (n : Option Notice) (h : (s.engine l).Legal) : ((takeNotice l n s).engine l).Legal := by
  unfold takeNotice
  split
  · exact h
  · next heard =>
    dsimp only
    generalize ht : (squeezeUnbegun l s).setEngine l (((squeezeUnbegun l s).engine l).takeNotice n) = t
    have noticed : (t.engine l).Legal := by
      rw [← ht, State.setEngine_same, squeezeUnbegun_engine]
      exact h.takeNotice (by simpa using heard) n
    refine readNext_legal ?_
    split
    · next ho => exact (openSlotOver_leaves noticed ho .ok).legal
    · exact noticed

/-! ## LINE_ENABLE and LINE_DISABLE (R57, R80) -/

theorem enableLine_legal {t : State} (ht : enableLine l s = .ok t) : (t.engine l).Legal := by
  unfold enableLine at ht
  split at ht
  · obtain rfl := Except.ok.inj ht
    rw [State.setEngine_same]
    have rests : Engine.Rests { (s.engine l).turnOff with state := .wait } :=
      ⟨⟨rfl, .inl rfl, rfl, rfl, rfl, rfl, rfl⟩, nofun, rfl, nofun⟩
    exact rests.legal
  · exact nomatch ht

/-- What a line tears down leaves its transmitter and its state (R80). -/
theorem tearDown_relieved (l : Line) (s : State) : (s.engine l).Relieved ((tearDown l s).engine l) :=
  (completeRequest_relieved ..).trans ((returnHeld_relieved ..).trans (leaveSlot_relieved ..))

theorem disableLine_legal {t : State} (h : (s.engine l).Legal) (ht : disableLine l s = .ok t) : (t.engine l).Legal := by
  unfold disableLine at ht
  dsimp only at ht
  split at ht
  · exact nomatch ht
  · split at ht
    · obtain rfl := Except.ok.inj ht
      exact h
    · obtain ⟨state, tx⟩ : ((tearDown l s).engine l).state = (s.engine l).state ∧ ((tearDown l s).engine l).tx = (s.engine l).tx := by
        obtain ⟨_, _, _, _, relieved⟩ := tearDown_relieved l s
        rw [relieved]
        exact ⟨rfl, rfl⟩
      split at ht
      · next hs =>
        obtain rfl := Except.ok.inj ht
        rw [State.setEngine_same]
        exact Engine.disabling_legal hs (by rw [tx]; exact h.tx_iff.mpr (state.symm.trans hs))
      · obtain rfl := Except.ok.inj ht
        rw [State.setEngine_same]
        exact Engine.turnOff_legal _

end Walk

end Sys2Proof.Machine
end

section
/-! Every row of the table, and every period of the clock, keeps both engines legal (sections 4.2 to 4.8). -/

namespace Sys2Proof.Machine

/-! ## Steps that keep the engines legal -/

/-- The step from one state to another keeps both engines legal. -/
def EnginesKept (s t : State) : Prop := (∀ l, (s.engine l).Legal) → ∀ l, (t.engine l).Legal

theorem EnginesKept.refl (s : State) : EnginesKept s s := id

theorem EnginesKept.trans {s t u : State} (h : EnginesKept s t) (k : EnginesKept t u) : EnginesKept s u := k ∘ h

/-- A step that leaves the line engines alone. -/
theorem EnginesKept.of_lines {s t : State} (h : t.lines = s.lines) : EnginesKept s t := fun hl l => by
  rw [State.engine, h]
  exact hl l

/-- A step within a line's frame keeps the other engine as it is. -/
theorem LineFrame.enginesKept {l : Line} {s t : State} (h : LineFrame l s t) (own : (s.engine l).Legal → (t.engine l).Legal) :
    EnginesKept s t := fun hl m => by
  by_cases hm : m = l
  · subst hm; exact own (hl m)
  · rw [h.engine m hm]; exact hl m

section Steps

variable {s : State}

theorem setEngine_enginesKept {l : Line} {e : Engine} (h : (s.engine l).Legal → e.Legal) : EnginesKept s (s.setEngine l e) :=
  (setEngine_lineFrame l s e).enginesKept fun hl => by rw [State.setEngine_same]; exact h hl

/-! ## Boundaries (R22, R23, R52) -/

theorem noticeBoth_enginesKept (n : Option Notice) (s : State) : EnginesKept s (noticeBoth n s) :=
  ((takeNotice_lineFrame .a n s).enginesKept (takeNotice_legal n)).trans
    ((takeNotice_lineFrame .b n _).enginesKept (takeNotice_legal n))

theorem appendBoundary_lines (own swap overrunA overrunB : List Event) (s : State) :
    (appendBoundary own swap overrunA overrunB s).lines = s.lines := by
  obtain ⟨_, _, -, appended, -⟩ := appendBoundary_adds own swap overrunA overrunB s
  rw [appended]
  rfl

theorem boundary_enginesKept {u : State} (n : Option Notice) (own swap overrunA overrunB : List Event) (hu : u.lines = s.lines) :
    EnginesKept s (appendBoundary own swap overrunA overrunB (noticeBoth n u)) :=
  (EnginesKept.of_lines hu).trans ((noticeBoth_enginesKept n u).trans (.of_lines (appendBoundary_lines ..)))

theorem cycleBegin_enginesKept {own : Option EventKind} {u : State} (hu : u.lines = s.lines) : EnginesKept s (cycleBegin own u) :=
  boundary_enginesKept _ _ _ _ _ hu

theorem endCycle_enginesKept (sync : SyncState) (own : Option EventKind) {u : State} (hu : u.lines = s.lines) :
    EnginesKept s (endCycle sync own u) := by
  unfold endCycle
  split
  · exact cycleBegin_enginesKept hu
  · exact boundary_enginesKept _ _ _ _ _ hu
  · exact boundary_enginesKept _ _ _ _ _ hu
  · exact .of_lines hu

theorem ownBoundary_enginesKept (s : State) : EnginesKept s (ownBoundary s) := by
  unfold ownBoundary
  split <;> exact endCycle_enginesKept _ _ rfl

theorem completeTick_enginesKept (s : State) : EnginesKept s (completeTick s) := by
  unfold completeTick
  split
  · split
    · exact ownBoundary_enginesKept s
    · exact .of_lines rfl
  · exact .refl s

theorem syncEdge_enginesKept (s : State) : EnginesKept s (syncEdge s) := by
  unfold syncEdge
  extract_lets t s1
  have seen : s1.lines = s.lines := rfl
  split
  · split
    · exact .of_lines seen
    · split
      · exact .of_lines seen
      · exact cycleBegin_enginesKept rfl
      · split
        · exact endCycle_enginesKept _ _ seen
        · exact .of_lines rfl
      · exact endCycle_enginesKept _ _ seen
  · exact .refl s

theorem startCycles_enginesKept {t : State} (h : startCycles s = .ok t) : EnginesKept s t := by
  unfold startCycles at h
  split at h <;> cases h
  · exact cycleBegin_enginesKept rfl
  · exact .of_lines rfl
  · exact .of_lines rfl

theorem stopCycles_enginesKept {t : State} (h : stopCycles s = .ok t) : EnginesKept s t := by
  unfold stopCycles at h
  split at h
  · split at h <;> cases h <;> exact .of_lines rfl
  · cases h; exact .of_lines rfl
  · cases h; exact .refl _
  · cases h

theorem singleCycle_enginesKept {t : State} (h : singleCycle s = .ok t) : EnginesKept s t := by
  unfold singleCycle at h
  split at h <;> cases h
  exact cycleBegin_enginesKept rfl

/-! ## What a moment owes (log 8) -/

theorem settleLine_enginesKept (l : Line) (s : State) : EnginesKept s (settleLine l s) :=
  (settleLine_lineFrame l s).enginesKept fun h =>
    startAcyclic_legal (startAcyclic_legal (startAcyclic_legal (startAcyclic_legal (slotBegin_legal (openSlotEnd_legal h)))))

theorem settle_enginesKept (s : State) : EnginesKept s (settle s) := by
  have drawn : EnginesKept s s.drawn := .of_lines rfl
  unfold settle
  dsimp only
  split
  · split
    · split
      · exact drawn.trans ((settleLine_enginesKept .a _).trans (settleLine_enginesKept .b _))
      · exact drawn.trans ((settleLine_enginesKept .b _).trans (settleLine_enginesKept .a _))
    · exact settleLine_enginesKept .a s
  · split
    · exact settleLine_enginesKept .b s
    · exact .refl s

/-- A start edge gets its place on a line that sends, which is not OFF (R13). -/
theorem claimEdge_enginesKept (l : Line) (s t : State) : EnginesKept t (claimEdge l s t) := by
  rcases claimEdge_cases l s t with h | ⟨-, sends, h⟩
  · rw [h]; exact .refl t
  · rw [h]
    exact setEngine_enginesKept fun hl => hl.withReceiver _ _ (.inl (by simp [sends]))

theorem settleMoment_enginesKept (s : State) : EnginesKept s (settleMoment s) :=
  (settle_enginesKept s).trans ((claimEdge_enginesKept .a s _).trans (claimEdge_enginesKept .b s _))

/-! ## The blocks beside the lines -/

theorem endCheck_lines (s : State) : (endCheck s).lines = s.lines := by
  unfold endCheck
  split
  · split <;> rfl
  · rfl

theorem endCopy_lines (s : State) : (endCopy s).lines = s.lines := by
  unfold endCopy
  split <;> rfl

theorem checkMove_lines (s : State) : (checkMove s).lines = s.lines := by
  rcases checkMove_cases (s := s) with h | h | ⟨p, h⟩
  · rw [h]
  · rw [h, endCheck_lines]
  · rw [h]; rfl

theorem checkMoves_lines (n : Nat) : ∀ s, (checkMoves n s).lines = s.lines := by
  induction n with
  | zero => exact fun _ => rfl
  | succ n ih => exact fun s => (ih _).trans (checkMove_lines s)

theorem storeAct_lines (s : State) : (storeAct s).lines = s.lines := by
  unfold storeAct
  dsimp only
  split
  · split
    · rw [endCheck_lines]; rfl
    · rw [checkMoves_lines]; rfl
  · split
    · split
      · rw [endCopy_lines]; rfl
      · split
        · rw [endCopy_lines]; rfl
        · rfl
    · rfl

theorem windowRead_lines (w : WinTarget) (s : State) : (windowRead w s).2.lines = s.lines := by
  have progress : (copyProgress s).lines = s.lines := by
    unfold copyProgress
    split <;> rfl
  have record (id : RecordId) (bytes : List Byte) (k : Nat) : (readRecord id bytes k s).2.lines = s.lines := by
    by_cases hk : k = 0
    · subst hk; rfl
    · rw [readRecord_later hk]
  have claimed (m : Mailbox) (byte : Buffer → Byte) : (readClaimed m byte s).2.lines = s.lines := by
    unfold readClaimed
    split <;> rfl
  cases w with
  | pendingEntry | pendingCount => exact progress
  | result | station | mailboxPart | eventHeader => exact record _ _ _
  | mailboxHeader | mailboxPayload => exact claimed _ _
  | _ => rfl

theorem windowWrite_lines (w : WinTarget) (v : Byte) (s : State) : (windowWrite w v s).lines = s.lines := by
  have pending (f : Bank → Bank) : (writePending f s).lines = s.lines := by
    unfold writePending
    split <;> rfl
  cases w with
  | pendingEntry | pendingCount => exact pending _
  | _ => rfl

theorem plainWrite_lines (offset : BitVec 6) (v : Byte) (s : State) : (plainWrite offset v s).lines = s.lines := by
  unfold plainWrite
  split <;> rfl

/-- A command that leaves the line engines alone. -/
def LinesFree (command : State → Except CmdStatus State) : Prop := ∀ s t, command s = .ok t → t.lines = s.lines

theorem scheduleCommand_linesFree (f : Schedule → Except CmdStatus Schedule) : LinesFree (scheduleCommand f) := by
  intro s t ht
  unfold scheduleCommand at ht
  split at ht <;> cases ht
  rfl

theorem stationCommand_linesFree (f : Station → Except CmdStatus Station) : LinesFree (stationCommand f) := by
  intro s t ht
  unfold stationCommand at ht
  split at ht
  · split at ht <;> cases ht
    rfl
  · cases ht

theorem imageCommand_linesFree (f : Fin 64 → ImageStore → ImageStore) : LinesFree (imageCommand f) := by
  intro s t ht
  unfold imageCommand at ht
  split at ht <;> cases ht
  rfl

theorem mailboxCommand_linesFree {f : Fin 48 → Mailbox → State → Except CmdStatus State} (h : ∀ i m, LinesFree (f i m)) :
    LinesFree (mailboxCommand f) := by
  intro s t ht
  unfold mailboxCommand at ht
  split at ht
  · exact h _ _ s t ht
  · cases ht

theorem claimMailbox_linesFree (i : Fin 48) (m : Mailbox) : LinesFree (claimMailbox i m) := by
  intro s t ht
  unfold claimMailbox at ht
  split at ht <;> cases ht
  rfl

theorem releaseMailbox_linesFree (i : Fin 48) (m : Mailbox) : LinesFree (releaseMailbox i m) := by
  intro s t ht
  unfold releaseMailbox at ht
  split at ht <;> cases ht <;> rfl

theorem flushMailbox_linesFree (i : Fin 48) (m : Mailbox) : LinesFree (flushMailbox i m) := by
  intro s t ht
  cases ht
  rfl

theorem postRequest_linesFree : LinesFree postRequest := by
  intro s t ht
  unfold postRequest at ht
  dsimp only at ht
  split at ht
  · cases ht
  · split at ht
    · cases ht
    · split at ht <;> cases ht
      rfl

theorem cancelRequest_linesFree : LinesFree cancelRequest := by
  intro s t ht
  unfold cancelRequest at ht
  dsimp only at ht
  split at ht
  · cases ht
  · split at ht
    · cases ht; rfl
    · split at ht <;> cases ht

theorem popEvent_linesFree : LinesFree popEvent := by
  intro s t ht
  unfold popEvent at ht
  split at ht <;> cases ht
  rfl

/-! ## Accesses, events and commands -/

theorem event_enginesKept {f : State → State} (h : ∀ u, EnginesKept u (f u)) : EnginesKept s (s.event f) := by
  unfold State.event
  split
  · exact .refl s
  · exact h s

theorem access_enginesKept {f : State → State} (h : ∀ u, EnginesKept u (f u)) : EnginesKept s (s.access f) := by
  unfold State.access
  split
  · exact .refl s
  · have quiet : EnginesKept s (s.withHost { s.host with data := none }) := .of_lines rfl
    exact quiet.trans (h _)

theorem commandAccess_enginesKept {command : State → Except CmdStatus State} (code : Byte)
    (h : ∀ u t, command u = .ok t → EnginesKept u t) : EnginesKept s (commandAccess code command s) :=
  access_enginesKept fun u => by
    unfold State.give
    split
    · next t ht => exact (h u t ht).trans (.of_lines rfl)
    · exact .of_lines rfl

theorem lineCommand_enginesKept {f : Line → State → Except CmdStatus State} (hframe : ∀ l s t, f l s = .ok t → LineFrame l s t)
    (hown : ∀ l s t, f l s = .ok t → (s.engine l).Legal → (t.engine l).Legal) (u t : State) (ht : lineCommand f u = .ok t) :
    EnginesKept u t := by
  unfold lineCommand at ht
  split at ht
  · exact (hframe _ u t ht).enginesKept (hown _ u t ht)
  · cases ht

/-! ## Every row -/

/-- A legal engine is legal with any settings (R55). -/
theorem Engine.Legal.withSetting {e : Engine} (h : e.Legal) (which : LineSetting) (v : Byte) : (e.withSetting which v).Legal := by
  cases which <;> exact h

/-- A row of the table keeps both engines legal. -/
def RowKeepsEngines (c : Instr) (s : State) : Prop := ∃ t, exec c s = .next t ∧ EnginesKept s t

theorem rowKeepsEngines_access {c : Instr} {f : State → State} (h : exec c s = .next (s.access f)) (k : ∀ u, EnginesKept u (f u)) :
    RowKeepsEngines c s := ⟨_, h, access_enginesKept k⟩

/-- An access that has no part in the lines. -/
theorem rowKeepsEngines_free {c : Instr} {f : State → State} (h : exec c s = .next (s.access f)) (k : ∀ u, (f u).lines = u.lines) :
    RowKeepsEngines c s := rowKeepsEngines_access h fun u => .of_lines (k u)

theorem rowKeepsEngines_event {c : Instr} {f : State → State} (h : exec c s = .next (s.event f)) (k : ∀ u, EnginesKept u (f u)) :
    RowKeepsEngines c s := ⟨_, h, event_enginesKept k⟩

theorem rowKeepsEngines_command {c : Instr} {code : Byte} {command : State → Except CmdStatus State}
    (h : exec c s = .next (commandAccess code command s)) (k : ∀ u t, command u = .ok t → EnginesKept u t) : RowKeepsEngines c s :=
  ⟨_, h, commandAccess_enginesKept code k⟩

theorem rowKeepsEngines_otherBlock {c : Instr} {code : Byte} {command : State → Except CmdStatus State}
    (h : exec c s = .next (commandAccess code command s)) (k : LinesFree command) : RowKeepsEngines c s :=
  rowKeepsEngines_command h fun u t ht => .of_lines (k u t ht)

/-- A row of a line's traffic keeps its own engine legal. -/
theorem rowKeepsEngines_line {c : Instr} {l : Line} (hl : lineOf c = some l) (s : State) : RowKeepsEngines c s := by
  have of_own {g : State → State} (hg : ∀ u, exec c u = .next (u.event g)) (hlegal : ∀ u, (u.engine l).Legal → ((g u).engine l).Legal) :
      RowKeepsEngines c s := by
    refine ⟨_, hg s, fun h m => ?_⟩
    have frame := (lineRow_frame hl (hg s)).1
    refine frame.enginesKept (fun own => ?_) h m
    unfold State.event
    split
    · exact own
    · exact hlegal s own
  cases c <;> cases hl
  case slotBegin => exact of_own (fun _ => rfl) fun _ => slotBegin_legal
  case characterTransmitted => exact of_own (fun _ => rfl) fun _ => characterSent_legal
  case receivedCharacter => exact of_own (fun _ => rfl) fun _ h => completeCharacter_legal _ (startEdge_legal h)
  case falseStart => exact of_own (fun _ => rfl) fun _ => falseStart_legal
  case replyWindowExpiry => exact of_own (fun _ => rfl) fun _ => windowExpiry_legal
  case characterGapExpiry => exact of_own (fun _ => rfl) fun _ => charGapExpiry_legal
  case quietIdleExpiry =>
    refine of_own (fun _ => rfl) fun u h => ?_
    split
    · exact h
    · exact endQuiet_legal h
  case quietLimitExpiry => exact of_own (fun _ => rfl) fun _ => endQuiet_legal
  case frameGapEnd => exact of_own (fun _ => rfl) fun _ => frameGapEnd_legal
  case openSlotEnd => exact of_own (fun _ => rfl) fun _ => openSlotEnd_legal
  case acyclicStart => exact of_own (fun _ => rfl) fun _ => startAcyclic_legal
  case startEdge => exact of_own (fun _ => rfl) fun _ => startEdge_legal
  case rxReturnedTo1 => exact of_own (fun _ => rfl) fun _ => rxReturned_legal

/-- A reset leaves both engines in their reset state (R165, R166). -/
theorem resetLines_legal {t : State} (h : t.lines = State.reset.lines) (l : Line) : (t.engine l).Legal := by
  rw [State.engine, h]
  exact State.reset_enginesLegal l

/-- A row that is the access its own name describes, beside the traffic of the lines. -/
theorem rowKeepsEngines_wellFormed (c : Instr) (s : State) (h : c.wellFormed = true) (hl : lineOf c = none) : RowKeepsEngines c s := by
  cases c with
  | cycleStart => exact rowKeepsEngines_command rfl fun _ _ => startCycles_enginesKept
  | cycleStop => exact rowKeepsEngines_command rfl fun _ _ => stopCycles_enginesKept
  | cycleSingle => exact rowKeepsEngines_command rfl fun _ _ => singleCycle_enginesKept
  | changeover | abortChangeover | copyActive => exact rowKeepsEngines_otherBlock rfl (scheduleCommand_linesFree _)
  | lineEnable =>
    exact rowKeepsEngines_command rfl (lineCommand_enginesKept enableLine_lineFrame fun _ _ _ ht _ => enableLine_legal ht)
  | lineDisable =>
    exact rowKeepsEngines_command rfl (lineCommand_enginesKept disableLine_lineFrame fun _ _ _ ht h => disableLine_legal h ht)
  | park | unpark | clearCounters => exact rowKeepsEngines_otherBlock rfl (stationCommand_linesFree _)
  | publishImage | markImage => exact rowKeepsEngines_otherBlock rfl (imageCommand_linesFree _)
  | unmarkAll => exact rowKeepsEngines_otherBlock rfl fun _ _ ht => by cases ht; rfl
  | claim => exact rowKeepsEngines_otherBlock rfl (mailboxCommand_linesFree claimMailbox_linesFree)
  | release => exact rowKeepsEngines_otherBlock rfl (mailboxCommand_linesFree releaseMailbox_linesFree)
  | flush => exact rowKeepsEngines_otherBlock rfl (mailboxCommand_linesFree flushMailbox_linesFree)
  | post => exact rowKeepsEngines_otherBlock rfl postRequest_linesFree
  | cancel => exact rowKeepsEngines_otherBlock rfl cancelRequest_linesFree
  | pop => exact rowKeepsEngines_otherBlock rfl popEvent_linesFree
  | softReset => exact rowKeepsEngines_command rfl fun _ _ ht _ => by cases ht; exact resetLines_legal rfl
  | badCommand code =>
    have hcode : commandOfCode code = none := by simpa [Instr.wellFormed] using h
    have run : exec (.badCommand code) s = badCode code s := by rw [exec, execBadCommand, hcode]
    exact rowKeepsEngines_otherBlock (run.trans rfl) fun _ _ ht => by cases ht
  | cytModeWrite | cytPrescaleWrite | cytWindowWrite | cytPeriodHighWrite =>
    exact rowKeepsEngines_free rfl fun _ => by unfold settingWrite; dsimp only; split <;> rfl
  | divisorLowWrite | overrunCounterWrite | strayCounterWrite =>
    exact rowKeepsEngines_access rfl fun _ => setEngine_enginesKept fun h => h
  | divisorHighWrite =>
    exact rowKeepsEngines_access rfl fun u => by
      dsimp only
      split
      · exact setEngine_enginesKept fun h => h
      · exact .of_lines rfl
  | lineSettingWrite l which =>
    exact rowKeepsEngines_access rfl fun u => by
      split
      · exact setEngine_enginesKept fun legal => legal.withSetting which _
      · exact .of_lines rfl
  | irqStatusWrite => exact rowKeepsEngines_free rfl fun _ => by split <;> rfl
  | cytPeriodLowWrite | cytValueLowRead | cycleCountLowRead | schChangeoversLowRead | poolMissesWrite | hostStatusWrite
  | irqEnableWrite => exact rowKeepsEngines_free rfl fun _ => rfl
  | winDataRead | winPeekRead => exact rowKeepsEngines_free rfl fun u => windowRead_lines _ u
  | winDataWrite v | winPeekWrite v => exact rowKeepsEngines_free rfl fun u => windowWrite_lines _ v u
  | registerWrite offset v =>
    have hrow : ownRowOfWrite offset v = none := by simpa [Instr.wellFormed] using h
    have run : exec (.registerWrite offset v) s = .next (s.access (plainWrite offset v)) := by rw [exec, execRegisterWrite, hrow]
    exact rowKeepsEngines_free run (plainWrite_lines offset v)
  | pinReset | powerUp => exact ⟨_, rfl, fun _ => resetLines_legal rfl⟩
  | resetRelease => exact ⟨_, rfl, .of_lines rfl⟩
  | tick =>
    exact rowKeepsEngines_event rfl fun u => by
      split
      · exact (settle_enginesKept u).trans (completeTick_enginesKept _)
      · exact .refl u
  | periodEnd | syncWindowExpiry =>
    exact rowKeepsEngines_event rfl fun u => by
      split
      · exact (settle_enginesKept u).trans (ownBoundary_enginesKept _)
      · exact .refl u
  | syncFallingEdge => exact rowKeepsEngines_event rfl syncEdge_enginesKept
  | syncSeenHigh =>
    exact rowKeepsEngines_event rfl fun u => by
      unfold syncHigh
      split <;> exact .of_lines rfl
  | changeoverCheckEnd => exact rowKeepsEngines_event rfl fun u => .of_lines (endCheck_lines u)
  | copyComplete => exact rowKeepsEngines_event rfl fun u => .of_lines (endCopy_lines u)
  | _ => cases hl

/-- Every row of the table, through the row it spells (log 16). -/
theorem rowKeepsEngines (c : Instr) (s : State) : RowKeepsEngines c s := by
  cases hl : lineOf c with
  | some l => exact rowKeepsEngines_line hl s
  | none =>
    by_cases hw : c.wellFormed = true
    · exact rowKeepsEngines_wellFormed c s hw hl
    · have spelled {c' : Instr} (he : exec c s = exec c' s) (hc : c'.wellFormed = true) (hn : lineOf c' = none) :
          RowKeepsEngines c s := by
        obtain ⟨t, ht, k⟩ := rowKeepsEngines_wellFormed c' s hc hn
        exact ⟨t, he.trans ht, k⟩
      cases c <;> simp [Instr.wellFormed] at hw
      case badCommand code =>
        obtain ⟨c', hc⟩ := Option.ne_none_iff_exists'.mp hw
        exact spelled (exec_badCommand s hc) (wellFormed_ofCode hc).1 (lineOf_ofCode hc)
      case registerWrite offset v =>
        obtain ⟨c', hc⟩ := Option.ne_none_iff_exists'.mp hw
        exact spelled (exec_registerWrite s hc) (wellFormed_ofOffset hc).1 (lineOf_ofOffset hc)

/-! ## Every period -/

section Sample

variable {l : Line} {level : Bool}

theorem rememberSample_legal (h : (s.engine l).Legal) : ((rememberSample l level s).engine l).Legal := by
  by_cases hs : (s.engine l).state = .off
  · rw [rememberSample_off hs]; exact h
  · rw [rememberSample_seen hs, State.seen, State.setEngine_same]
    exact h.withReceiver _ _ (.inl hs)

/-- A sample within a character: a vote, a bit, a false start, or the whole character (R3). -/
theorem sampleCharacter_legal {p : RxProgress} (h : (s.engine l).Legal) (hs : (s.engine l).state ≠ .off) :
    ((sampleCharacter l level p s).engine l).Legal := by
  by_cases hdecides : (p.count + 1) % 16 = 10
  · by_cases hstart : p.count + 1 = 10 ∧ majority (votesAfter level p) = true
    · rw [sampleCharacter_falseStart hstart.1 hstart.2]; exact falseStart_legal h
    · by_cases hlast : p.count + 1 = 170
      · rw [sampleCharacter_complete hlast]; exact completeCharacter_legal _ h
      · rw [sampleCharacter_bit hdecides hstart hlast, State.setEngine_same]; exact h.withReceiver _ _ (.inl hs)
  · rw [sampleCharacter_vote hdecides, State.setEngine_same]; exact h.withReceiver _ _ (.inl hs)

theorem sampleAt_legal (h : (s.engine l).Legal) : ((sampleAt l level s).engine l).Legal := by
  unfold sampleAt
  refine rememberSample_legal ?_
  split
  · next p hc => exact sampleCharacter_legal h fun hoff => by simp [h.no_char hoff] at hc
  · split
    · exact startEdge_legal h
    · exact h

theorem lineMoment_legal (h : (s.engine l).Legal) : ((lineMoment l s).engine l).Legal := by
  unfold lineMoment
  dsimp only
  split
  · split
    · exact characterSent_legal h
    · exact h
  · split
    · exact windowExpiry_legal h
    · exact h
  · split
    · exact charGapExpiry_legal h
    · exact h
  · split
    · exact endQuiet_legal h
    · split
      · exact endQuiet_legal h
      · exact h
  · split
    · exact frameGapEnd_legal h
    · exact h
  · exact h
  · exact h

end Sample

theorem lineMoment_enginesKept (l : Line) (s : State) : EnginesKept s (lineMoment l s) :=
  (lineMoment_lineFrame l s).enginesKept lineMoment_legal

theorem lineSample_enginesKept (l : Line) (s : State) : EnginesKept s (lineSample l s) := by
  rcases Nat.lt_or_ge (s.engine l).sampleClock ((s.engine l).divisor.toNat + 1) with h | h
  · rw [lineSample_notDue h]; exact .refl s
  · rw [lineSample_due h]
    have pin : EnginesKept s (s.sampled l (s.nextPin l)) :=
      (setEngine_enginesKept (e := { s.engine l with sampleClock := 0 }) fun h => h).trans (.of_lines rfl)
    exact pin.trans ((sampleAt_lineFrame _).enginesKept sampleAt_legal)

theorem lineAct_enginesKept (l : Line) (s : State) : EnginesKept s (lineAct l s) := by
  unfold lineAct
  refine EnginesKept.trans ?_ ((lineSample_enginesKept l _).trans ((lineMoment_enginesKept l _).trans (lineMoment_enginesKept l _)))
  split
  · exact lineMoment_enginesKept l s
  · exact .refl s

/-- Each actor of a period. -/
theorem Actor.act_enginesKept (a : Actor) (s : State) : EnginesKept s (a.act s) := by
  unfold Actor.act
  split
  · cases a with
    | timer => exact completeTick_enginesKept s
    | sync => exact syncEdge_enginesKept s
    | line l => exact lineAct_enginesKept l s
    | store => exact .of_lines (storeAct_lines s)
  · exact .refl s

theorem actors_enginesKept (actors : List Actor) : ∀ s, EnginesKept s (actors.foldl (fun u a => a.act u) s) := by
  induction actors with
  | nil => exact EnginesKept.refl
  | cons a actors ih => exact fun s => (a.act_enginesKept s).trans (ih _)

/-- A period's counting grows spans, among them that of the character being sent (R1). -/
theorem Engine.Legal.countPeriod {e : Engine} (h : e.Legal) : e.countPeriod.Legal := by
  obtain ⟨h1, h2, htx, h4, h5, h6, h7, h8, h9, h10, h11, h12, h13, h14, h15, h16, h17, h18, h19, h20, h21⟩ := h
  exact ⟨h1, h2, by rw [Engine.countPeriod, Option.isSome_map]; exact htx, h4, h5, h6, h7, h8, h9, h10, h11, h12, h13, h14, h15,
    h16, h17, h18, h19, h20, h21⟩

theorem countAll_enginesKept (s : State) : EnginesKept s (countAll s) := by
  have timer : (countTimer s).lines = s.lines := by rw [countTimer_eq_later]; rfl
  unfold countAll
  extract_lets s1 s2
  have counted (l : Line) (u : State) : EnginesKept u (u.setEngine l (u.engine l).countPeriod) :=
    setEngine_enginesKept Engine.Legal.countPeriod
  have both : EnginesKept s1 s2 := (counted .a s1).trans (counted .b _)
  exact (EnginesKept.of_lines timer).trans (both.trans (.of_lines rfl))

theorem clockPeriod_enginesKept (s : State) : EnginesKept s (clockPeriod s) := by
  unfold clockPeriod
  split
  · exact .refl s
  · obtain ⟨n, -, hdue, -⟩ := dueActors_cases (countAll (settleMoment s))
    have counted : EnginesKept s (dueActors (countAll (settleMoment s))).2 := by
      rw [hdue]
      exact (settleMoment_enginesKept s).trans ((countAll_enginesKept _).trans (.of_lines rfl))
    exact counted.trans (actors_enginesKept _ _)

end Steps

/-- Settles O38: a command keeps the engines legal as its row does, and so does a period of the clock. -/
theorem enginesStayLegal : Obligations.EnginesStayLegal := by
  unfold Obligations.EnginesStayLegal
  intro s t hl ht
  cases hp : s.pending with
  | nil =>
    simp only [step, hp] at ht
    cases ht
    exact clockPeriod_enginesKept s hl
  | cons c rest =>
    simp only [step, hp] at ht
    obtain ⟨t', ht', kept⟩ := rowKeepsEngines c { s with pending := rest }
    obtain rfl : t' = t := Host.Outcome.next.inj (ht'.symm.trans ht)
    exact kept hl

end Sys2Proof.Machine
end

section
/-! LINE_ENABLE and LINE_DISABLE, line settings and counters (sections 4.1, 4.3 and 4.8). -/

namespace Sys2Proof.Machine

/-! ## What bytes name (R82, R162, section 10.4) -/

theorem lineArg_names (v : Byte) :
    (lineArg v = some .a ↔ v = 0) ∧ (lineArg v = some .b ↔ v = 1) ∧ (lineArg v = none ↔ 2 ≤ v.toNat) := by
  by_cases h0 : v = 0
  · subst h0; decide
  · by_cases h1 : v = 1
    · subst h1; decide
    · have above : 2 ≤ v.toNat := by bv_omega
      have none : lineArg v = none := (if_neg h0).trans (if_neg h1)
      rw [none]
      exact ⟨⟨nofun, fun h => absurd h h0⟩, ⟨nofun, fun h => absurd h h1⟩, ⟨fun _ => above, fun _ => rfl⟩⟩

theorem stationIx_names (v : Byte) :
    (∀ i : Fin 62, stationIx v = some i ↔ v.toNat = i.val + 1) ∧ (stationIx v = none ↔ v.toNat = 0 ∨ 63 ≤ v.toNat) := by
  unfold stationIx
  by_cases h : 1 ≤ v.toNat ∧ v.toNat ≤ 62
  · rw [dif_pos h]
    refine ⟨fun i => ?_, by simp; omega⟩
    rw [Option.some.injEq, Fin.ext_iff]
    show v.toNat - 1 = i.val ↔ _
    omega
  · rw [dif_neg h]
    exact ⟨fun i => by simp; omega, by simp; omega⟩

theorem mailboxArg_names (v : Byte) :
    (∀ m : Fin 48, mailboxArg v = some m ↔ v.toNat = m.val) ∧ (mailboxArg v = none ↔ 48 ≤ v.toNat) := by
  unfold mailboxArg
  by_cases h : v.toNat < 48
  · rw [dif_pos h]
    exact ⟨fun m => by rw [Option.some.injEq, Fin.ext_iff], by simp; omega⟩
  · rw [dif_neg h]
    exact ⟨fun m => by simp; omega, by simp; omega⟩

theorem argumentsName : ArgumentsName := fun v => ⟨lineArg_names v, stationIx_names v, mailboxArg_names v⟩

section Commands

variable {s : State} {l : Line} {code : Byte} {f : Line → State → Except CmdStatus State}

/-! ## Commands of a line -/

theorem lineCommand_badArgument (hr : s.inReset = false) (h : lineArg s.host.arg0 = none) :
    commandAccess code (lineCommand f) s = s.refused code .badArgument :=
  commandAccess_error hr (by simp only [lineCommand, State.withHost_host, h])

theorem lineCommand_refused {r : CmdStatus} (hr : s.inReset = false) (hl : lineArg s.host.arg0 = some l)
    (h : f l (s.withHost { s.host with data := none }) = .error r) : commandAccess code (lineCommand f) s = s.refused code r :=
  commandAccess_error hr (by simpa only [lineCommand, State.withHost_host, hl] using h)

theorem lineCommand_taken {t : State} (hr : s.inReset = false) (hl : lineArg s.host.arg0 = some l)
    (h : f l (s.withHost { s.host with data := none }) = .ok t) :
    commandAccess code (lineCommand f) s = t.withHost { t.host with cmd := code, status := .accepted } :=
  commandAccess_ok hr (by simpa only [lineCommand, State.withHost_host, hl] using h)

/-- Settles O23: the names of bytes, the two refusals, and the line that starts. -/
theorem lineEnableStartsAnOffLine : Obligations.LineEnableStartsAnOffLine := by
  unfold Obligations.LineEnableStartsAnOffLine
  refine ⟨argumentsName, fun s hr => ⟨fun h => congrArg _ (lineCommand_badArgument hr h), fun l hl => ⟨fun hs => ?_, fun hs => ?_⟩⟩⟩
  · exact congrArg _ (lineCommand_refused hr hl (if_neg hs))
  · refine ⟨_, congrArg Host.Outcome.next (lineCommand_taken (f := enableLine) hr hl (if_pos hs)), ?_⟩
    have engine : ∀ (u : State) (x : HostPort) (e : Engine), ((u.setEngine l e).withHost x).engine l = e :=
      fun u _ e => u.setEngine_same l e
    rw [engine]
    exact ⟨rfl, ⟨rfl, rfl, rfl, rfl, rfl, rfl, rfl, rfl⟩, rfl, rfl, rfl, ⟨rfl, rfl, rfl, rfl, rfl, rfl, rfl, rfl, rfl, rfl⟩,
      State.setEngine_other _ _ (otherLine_ne l), rfl⟩

/-! ## Settings and counters (R55, R56) -/

theorem lineSettingWrite_taken {which : LineSetting} {v : Byte} (hr : s.inReset = false) (hs : (s.engine l).state = .off)
    (hv : settingFits which v = true) : TakesSetting s l which v ((s.engine l).withSetting which v) :=
  (exec_ofAccess (c := .lineSettingWrite l which v) hr rfl).trans (congrArg _ (if_pos ⟨hs, hv⟩))

theorem lineSettingWrite_locked {which : LineSetting} {v : Byte} (hr : s.inReset = false)
    (h : ¬ ((s.engine l).state = .off ∧ settingFits which v = true)) :
    exec (.lineSettingWrite l which v) s = .next { s with host := { s.host with data := none, setLocked := true } } :=
  (exec_ofAccess (c := .lineSettingWrite l which v) hr rfl).trans (congrArg _ (if_neg h))

/-- Settles O25: the divisor's two bytes, then the settings by their ranges. -/
theorem lineSettingsAreWrittenWhileOff : Obligations.LineSettingsAreWrittenWhileOff := by
  unfold Obligations.LineSettingsAreWrittenWhileOff
  intro s l v hr e
  have divisor := exec_ofAccess (s := s) (c := .divisorHighWrite l v) hr rfl
  refine ⟨(exec_ofAccess (c := .divisorLowWrite l v) hr rfl).trans rfl, fun hs hv => ?_, fun h => ?_, fun hs => ?_, fun which h => ?_⟩
  · exact divisor.trans (congrArg _ (if_pos ⟨hs, hv⟩))
  · refine divisor.trans (congrArg _ (if_neg ?_))
    rintro ⟨hs, hv⟩
    exact h.elim (· hs) fun hv' => Nat.not_lt.mpr hv hv'
  · have taken : ∀ which, settingFits which v = true → TakesSetting s l which v (e.withSetting which v) :=
      fun _ => lineSettingWrite_taken hr hs
    exact ⟨fun h => taken .frameGap (decide_eq_true h), fun h => taken .charGap (decide_eq_true h),
      fun h => taken .failThreshold (decide_eq_true h), fun h => taken .probeInterval (decide_eq_true h),
      taken .lineFlags rfl, taken .eventMask rfl⟩
  · refine lineSettingWrite_locked hr ?_
    rintro ⟨hs, hv⟩
    rcases h with h | ⟨rfl, h⟩ | ⟨rfl, h⟩ | ⟨rfl, h⟩ | ⟨rfl, h⟩
    · exact h hs
    all_goals
      simp only [settingFits, decide_eq_true_eq] at hv
      omega

/-- Settles O26. -/
theorem countersAreClearedByAnyWrite : Obligations.CountersAreClearedByAnyWrite := by
  unfold Obligations.CountersAreClearedByAnyWrite
  exact fun s v hr => ⟨(exec_ofAccess (c := .poolMissesWrite v) hr rfl).trans rfl,
    fun l => ⟨(exec_ofAccess (c := .overrunCounterWrite l v) hr rfl).trans rfl,
      (exec_ofAccess (c := .strayCounterWrite l v) hr rfl).trans rfl⟩⟩

/-! ## The teardown of LINE_DISABLE (R80, R140) -/

/-- The completion of a request that has no reply and gives no report (R134, R136, R140): the held buffer goes back and the reserved event
carries none. -/
theorem completeRequest_silent {q : Request} {o : Outcome} (hq : (s.engine l).request = some q) (ho : o = .notReady ∨ o = .aborted) :
    completeRequest l o none s = leaveRequest l ((s.giveBuffer (s.engine l).held).withEvents
      (s.events.appendReserved l (doneEvent l q o none none))) := by
  have kept : keptBuffer (s.engine l) o none = none := if_neg (by rcases ho with rfl | rfl <;> simp)
  have nibble : finalNibble o none = none := by simp [finalNibble]
  simp only [completeRequest, hq, kept, nibble, if_pos ho]
  rfl

/-- The event queue once the request in progress, if there is one, has ended ABORTED (R140). -/
def abortedQueue (l : Line) (s : State) : EventQueue :=
  match (s.engine l).request with
  | some q => s.events.appendReserved l (doneEvent l q .aborted none none)
  | none => s.events

/-- The results once the slot, if there is one, has ended ABORTED (R80). -/
def abortedSchedule (l : Line) (s : State) : Schedule :=
  match (s.engine l).slot with
  | some c => s.schedule.writeResult l c.index c.changeovers (c.result .aborted (s.engine l).generation)
  | none => s.schedule

/-- The request ends and the buffer is returned; the slot stays, but for the mark of an OPEN slot that is carried (R80). -/
theorem returnHeld_completeRequest (l : Line) (s : State) : ∃ slot, returnHeld l (completeRequest l .aborted none s)
      = ((s.giveBuffer (s.engine l).held).withEvents (abortedQueue l s)).setEngine l
          { s.engine l with request := none, held := none, slot := slot }
    ∧ (slot = (s.engine l).slot ∨ ∃ carried : Slot → Bool, slot = (s.engine l).slot.map fun c => { c with carried := carried c }) := by
  cases hq : (s.engine l).request with
  | none =>
    have silent : completeRequest l .aborted none s = s := by simp only [completeRequest, hq]
    refine ⟨_, ?_, .inl rfl⟩
    rw [silent, abortedQueue, hq, returnHeld, dropHeld]
    simp only [← hq]
    rfl
  | some q =>
    generalize ht : (s.giveBuffer (s.engine l).held).withEvents (s.events.appendReserved l (doneEvent l q .aborted none none)) = t
    have he : t.engine l = s.engine l := by rw [← ht]; rfl
    refine ⟨_, ?_, .inr ⟨fun c => decide (timeRemaining t c = 0), rfl⟩⟩
    rw [completeRequest_silent hq (.inr rfl), abortedQueue, hq]
    dsimp only
    rw [ht, leaveRequest_eq, he, returnHeld, State.setEngine_same, State.giveBuffer_none, dropHeld, State.setEngine_setEngine,
      State.setEngine_same]

/-- All that a teardown does (R80, R140). -/
theorem tearDown_eq (l : Line) (s : State) : ∃ e, (s.engine l).Relieved e ∧ tearDown l s =
    (((s.giveBuffer (s.engine l).held).withEvents (abortedQueue l s)).withSchedule (abortedSchedule l s)).setEngine l e := by
  obtain ⟨slot, ended, hslot⟩ := returnHeld_completeRequest l s
  unfold tearDown
  dsimp only
  rw [ended]
  cases hc : (s.engine l).slot with
  | none =>
    obtain rfl : slot = none := by
      rcases hslot with rfl | ⟨_, rfl⟩
      · exact hc
      · rw [hc]; rfl
    refine ⟨{ s.engine l with request := none, held := none, slot := none }, ⟨_, _, _, _, rfl⟩, ?_⟩
    rw [abortedSchedule, hc, leaveSlot, State.setEngine_same]
    rfl
  | some c =>
    obtain ⟨b, rfl⟩ : ∃ b, slot = some { c with carried := b } := by
      rcases hslot with rfl | ⟨carried, rfl⟩
      · exact ⟨c.carried, hc⟩
      · exact ⟨carried c, by rw [hc]; rfl⟩
    refine ⟨{ s.engine l with request := none, held := none, slot := none, snapshot := none }, ⟨_, _, _, _, rfl⟩, ?_⟩
    rw [abortedSchedule, hc, leaveSlot_slot (c := { c with carried := b }) .aborted (by rw [State.setEngine_same]),
      State.setEngine_same]
    exact State.setEngine_setEngine (((s.giveBuffer (s.engine l).held).withEvents (abortedQueue l s)).withSchedule _) l _ _

/-- The engine of a line that LINE_DISABLE leaves (R80): it finishes its character, or is OFF. -/
def Engine.disabled (e : Engine) : Engine := if e.state = .transmit then { e.emptied with disabling := true } else e.turnOff

theorem disableLine_running (hs : (s.engine l).state ≠ .off) (hd : (s.engine l).disabling = false) :
    disableLine l s = .ok ((tearDown l s).setEngine l ((tearDown l s).engine l).disabled) := by
  unfold disableLine
  dsimp only
  rw [if_neg hs, if_neg (by simp [hd])]
  by_cases ht : ((tearDown l s).engine l).state = .transmit
  · rw [if_pos ht, Engine.disabled, if_pos ht]
  · rw [if_neg ht, Engine.disabled, if_neg ht]

/-- What the engine of a disabled line holds and keeps (R57, R80). -/
theorem Engine.Relieved.disabled {e e' : Engine} (h : e.Relieved e') :
    e'.disabled.HoldsNothing ∧ e.SameSettings e'.disabled
    ∧ (e.state = .transmit → e'.disabled.state = .transmit ∧ e'.disabled.disabling = true ∧ e'.disabled.tx = e.tx)
    ∧ (e.state ≠ .transmit → e'.disabled.state = .off ∧ e'.disabled.disabling = false ∧ e'.disabled.tx = none) := by
  obtain ⟨slot, snapshot, held, request, rfl⟩ := h
  unfold Engine.disabled
  split
  · next hs =>
    exact ⟨⟨rfl, rfl, rfl, rfl, rfl, rfl, rfl, rfl⟩, ⟨rfl, rfl, rfl, rfl, rfl, rfl, rfl, rfl, rfl, rfl⟩, fun _ => ⟨hs, rfl, rfl⟩,
      fun hn => absurd hs hn⟩
  · next hs =>
    exact ⟨⟨rfl, rfl, rfl, rfl, rfl, rfl, rfl, rfl⟩, ⟨rfl, rfl, rfl, rfl, rfl, rfl, rfl, rfl, rfl, rfl⟩, fun ht => absurd ht hs,
      fun _ => ⟨rfl, rfl, rfl⟩⟩

/-- Settles O24: the refusals, the line already disabled, and the teardown. -/
theorem lineDisableTearsTheLineDown : Obligations.LineDisableTearsTheLineDown := by
  unfold Obligations.LineDisableTearsTheLineDown
  refine fun s hr => ⟨fun h => congrArg _ (lineCommand_badArgument hr h), fun l hl => ⟨fun hs => ?_, fun hs hd => ?_, fun hs hd _ => ?_⟩⟩
  · exact congrArg _ (lineCommand_refused hr hl (if_pos hs))
  · exact congrArg Host.Outcome.next (lineCommand_taken (f := disableLine) hr hl ((if_neg hs).trans (if_pos hd)))
  · obtain ⟨e, relieved, torn⟩ := tearDown_eq l (s.withHost { s.host with data := none })
    refine ⟨_, congrArg Host.Outcome.next (lineCommand_taken hr hl (disableLine_running hs hd)), ?_⟩
    obtain ⟨holds, settings, transmit, still⟩ := relieved.disabled
    rw [torn, State.setEngine_same, State.setEngine_setEngine]
    have engine : ∀ (u : State) (x : HostPort), ((u.setEngine l e.disabled).withHost x).engine l = e.disabled :=
      fun u _ => u.setEngine_same l _
    rw [engine]
    refine ⟨holds, settings, transmit, still, State.setEngine_other _ _ (otherLine_ne l), by rw [State.giveBuffer_eq]; rfl,
      fun c hc => ?_, fun hc => ?_, fun q hq => ?_, fun hq => ?_, by rw [State.giveBuffer_eq]; rfl⟩
    · show abortedSchedule l _ = _
      simp only [abortedSchedule, State.withHost_engine, hc]
      rfl
    · show abortedSchedule l _ = _
      simp only [abortedSchedule, State.withHost_engine, hc]
      rfl
    · show abortedQueue l _ = _
      simp only [abortedQueue, State.withHost_engine, hq]
      rfl
    · show abortedQueue l _ = _
      simp only [abortedQueue, State.withHost_engine, hq]
      rfl

end Commands

end Sys2Proof.Machine
end

section
/-! SLOT_BEGIN of an entry that sends traffic: to a station, and to every station (R61 to R67, R84). -/

namespace Sys2Proof.Machine

/-! ## An attempt that begins (R4, R67) -/

/-- The head character goes on TX, and the attempt carries the exchange. -/
theorem Engine.transmit_sends (e : Engine) (x : Exchange) (seqBit : Bool) :
    e.Sends (e.transmit x seqBit) x.station x.kind x.expected x.replyWindow seqBit x.payload := by
  unfold Engine.Sends Engine.transmit Engine.countAttempt
  cases e.request <;> rfl

/-- Past its own slot, snapshot, buffer, request and walk an engine begins to send as the engine it comes from. -/
theorem Engine.Sends.from_parts {e e0 e' : Engine} {station kind expected : Byte} {window : Half} {seqBit : Bool} {payload : List Byte}
    (h : e.Sends e' station kind expected window seqBit payload)
    (h0 : ∃ slot snapshot held request next walk,
      e = { e0 with slot := slot, snapshot := snapshot, held := held, request := request, next := next, walk := walk }) :
    e0.Sends e' station kind expected window seqBit payload := by
  obtain ⟨_, _, _, _, _, _, rfl⟩ := h0
  exact h

theorem Engine.Sends.notice {e e' : Engine} {station kind expected : Byte} {window : Half} {seqBit : Bool} {payload : List Byte}
    (h : e.Sends e' station kind expected window seqBit payload) : e'.notice = e.notice := by
  rw [h]

theorem Engine.Sends.state {e e' : Engine} {station kind expected : Byte} {window : Half} {seqBit : Bool} {payload : List Byte}
    (h : e.Sends e' station kind expected window seqBit payload) : e'.state = .transmit := by
  rw [h]

theorem Engine.Sends.sameSettings {e e' : Engine} {station kind expected : Byte} {window : Half} {seqBit : Bool} {payload : List Byte}
    (h : e.Sends e' station kind expected window seqBit payload) : e.SameSettings e' := by
  rw [h]
  exact ⟨rfl, rfl, rfl, rfl, rfl, rfl, rfl, rfl, rfl, rfl⟩

/-! ## Takes (R66, R103, R104) -/

section Takes

variable {s t : State} {l : Line}

/-- A take says what the line holds, and what becomes of the pool and the event queue. -/
theorem TakesBuffer.of_eq {s' t' : State} {needed : Bool} {w : TakeFor} (h : TakesBuffer s l needed w t) (hsp : s'.pool = s.pool)
    (hse : s'.events = s.events) (hh : (t'.engine l).held = (t.engine l).held) (htp : t'.pool = t.pool) (hte : t'.events = t.events) :
    TakesBuffer s' l needed w t' := by
  unfold TakesBuffer at h ⊢
  rwa [hsp, hse, hh, htp, hte]

theorem takesBuffer_unneeded (w : TakeFor) (hh : (s.engine l).held = none) : TakesBuffer s l false w s :=
  (if_neg (by simp)).mpr ⟨hh, rfl, rfl⟩

theorem takeBuffer_takes (w : TakeFor) (hh : (s.engine l).held = none) : TakesBuffer s l true w (takeBuffer l w s) := by
  refine (if_pos rfl).mpr ⟨fun b rest hf => ?_, fun hf => ?_⟩
  · rw [takeBuffer_free l w hf, State.setEngine_same]
    exact ⟨rfl, rfl, rfl⟩
  · rw [takeBuffer_miss l w hf]
    exact ⟨hh, rfl, rfl⟩

/-- A take touches what the line holds, the pool and the event queue only. -/
theorem takeBuffer_only (l : Line) (w : TakeFor) (s : State) : ∃ b p q,
    takeBuffer l w s = ((s.withPool p).withEvents q).setEngine l { s.engine l with held := b } := by
  cases hf : s.pool.free with
  | nil => exact ⟨(s.engine l).held, _, _, (takeBuffer_miss l w hf).trans (State.setEngine_self rfl).symm⟩
  | cons b rest => exact ⟨some b, { s.pool with free := rest }, s.events, takeBuffer_free l w hf⟩

/-- A slot that awaits a reply for a mailbox takes a buffer, unless RESYNC is sent in place of its kind (R66). -/
def Slot.takes (c : Slot) : Bool := decide (c.entry.mailbox.toNat < 48 ∧ c.kindSent ≠ kindBroadcast ∧ c.resync = false)

/-- What the take of a slot is for (R104). -/
def Slot.takeFor (c : Slot) : TakeFor :=
  { station := c.entry.station, cycle := c.cycle, index := BitVec.ofNat 8 c.index.val, tag := 0 }

theorem takeForSlot_takes (c : Slot) (hh : (s.engine l).held = none) :
    TakesBuffer s l c.takes c.takeFor (takeForSlot l c s) := by
  unfold takeForSlot Slot.takes
  split
  · next h => rw [decide_eq_true h]; exact takeBuffer_takes _ hh
  · next h => rw [decide_eq_false h]; exact takesBuffer_unneeded _ hh

theorem takeForSlot_only (l : Line) (c : Slot) (s : State) : ∃ b p q,
    takeForSlot l c s = ((s.withPool p).withEvents q).setEngine l { s.engine l with held := b } := by
  unfold takeForSlot
  split
  · exact takeBuffer_only l _ s
  · exact ⟨(s.engine l).held, s.pool, s.events, (State.setEngine_self rfl).symm⟩

end Takes

/-! ## A slot that is sent (R65 to R67) -/

section Sent

variable {s : State} {l : Line} {c : Slot}

/-- The image of an entry's outputs (R65). -/
def Slot.image (s : State) (c : Slot) : Image := s.images.images[Fin.ofNat 64 c.entry.image.toNat]

/-- The snapshot that a slot takes for what it sends (R65). -/
def Slot.snapshotTaken (s : State) (c : Slot) : Option Snapshot :=
  if sendsOutputs c.kindSent = true then some { bytes := (c.image s).live, generation := (c.image s).generation } else none

theorem takeSnapshot_eq (c : Slot) (hn : (s.engine l).snapshot = none) :
    takeSnapshot l c s = s.setEngine l { s.engine l with snapshot := c.snapshotTaken s } := by
  unfold takeSnapshot Slot.snapshotTaken
  split
  · rfl
  · exact (State.setEngine_self (by rw [← hn])).symm

/-- The payload of a slot: the first bytes of its snapshot, as many as its request length (R65, R124). -/
theorem exchange_payload (s : State) (c : Slot) : (c.exchange (c.snapshotTaken s)).payload =
    if sendsOutputs c.kindSent = true then (c.image s).live.toList.take c.entry.requestLength.toNat else [] := by
  unfold Slot.exchange Slot.snapshotTaken
  by_cases h : sendsOutputs c.kindSent = true
  · rw [if_pos h, if_pos h]
  · rw [if_neg h, if_neg h]

theorem exchange_expected (c : Slot) (n : Option Snapshot) : (c.exchange n).expected =
    if c.kindSent = kindWrite ∨ c.kindSent = kindResync then 0 else c.entry.replyLength := by
  simp [Slot.exchange, requiredLength]

/-- What sending the first attempt of a slot makes of a state (R65 to R67). -/
structure SlotSent (s : State) (l : Line) (c : Slot) (t : State) : Prop where
  slot : (t.engine l).slot = some { c with attempts := 1 }
  sends : (s.engine l).Sends (t.engine l) c.entry.station c.kindSent
    (if c.kindSent = kindWrite ∨ c.kindSent = kindResync then 0 else c.entry.replyLength) c.entry.replyWindow
    (isSequenced c.kindSent && sendSequence l c.entry.station s)
    (if sendsOutputs c.kindSent = true then (c.image s).live.toList.take c.entry.requestLength.toNat else [])
  snapshot : (t.engine l).snapshot = c.snapshotTaken s
  buffer : TakesBuffer s l c.takes c.takeFor t
  walk : (t.engine l).next = (s.engine l).next ∧ (t.engine l).walk = (s.engine l).walk
  request : (t.engine l).request = (s.engine l).request
  other : t.engine (otherLine l) = s.engine (otherLine l)
  frame : t = { s with lines := t.lines, pool := t.pool, events := t.events }

/-- The first attempt of a slot that the engine has just entered (R65 to R67). -/
theorem sendSlot_sent (hc : (s.engine l).slot = some c) (fresh : c.attempts = 0) (hq : (s.engine l).request = none)
    (hh : (s.engine l).held = none) (hn : (s.engine l).snapshot = none) : SlotSent s l c (sendSlot l c s) := by
  generalize hu : s.setEngine l { s.engine l with snapshot := c.snapshotTaken s } = u
  have ue : u.engine l = { s.engine l with snapshot := c.snapshotTaken s } := by rw [← hu, State.setEngine_same]
  have takes : TakesBuffer u l c.takes c.takeFor (takeForSlot l c u) := takeForSlot_takes c (by rw [ue]; exact hh)
  obtain ⟨b, p, q, taken⟩ := takeForSlot_only l c u
  generalize hv : takeForSlot l c u = v at taken takes
  have ve : v.engine l = { s.engine l with snapshot := c.snapshotTaken s, held := b } := by rw [taken, State.setEngine_same, ue]
  have exchange : (v.engine l).exchange = some (c.exchange (c.snapshotTaken s)) := by
    simp only [ve, Engine.exchange, hq, hc, Option.map_some]
  have sequence : sendSequence l c.entry.station v = sendSequence l c.entry.station s := by rw [taken, ← hu]; rfl
  generalize hseq : (isSequenced c.kindSent && sendSequence l c.entry.station s) = seqBit
  have sent : sendSlot l c s = v.setEngine l ((v.engine l).transmit (c.exchange (c.snapshotTaken s)) seqBit) := by
    rw [sendSlot, takeSnapshot_eq c hn, hu, hv, beginAttempt, exchange, ← hseq, ← sequence]
    rfl
  have te : (sendSlot l c s).engine l = (v.engine l).transmit (c.exchange (c.snapshotTaken s)) seqBit := by
    rw [sent, State.setEngine_same]
  have counted : (v.engine l).countAttempt = { v.engine l with slot := some { c with attempts := 1 } } := by
    simp only [Engine.countAttempt, ve, hq, hc, Option.map_some, fresh]
  have parts : ((sendSlot l c s).engine l).slot = some { c with attempts := 1 } ∧ ((sendSlot l c s).engine l).snapshot = c.snapshotTaken s
      ∧ ((sendSlot l c s).engine l).held = (v.engine l).held ∧ ((sendSlot l c s).engine l).next = (s.engine l).next
      ∧ ((sendSlot l c s).engine l).walk = (s.engine l).walk ∧ ((sendSlot l c s).engine l).request = (s.engine l).request := by
    rw [te, Engine.transmit, counted, ve]
    exact ⟨rfl, rfl, rfl, rfl, rfl, rfl⟩
  obtain ⟨slot, snapshot, held, next, walk, request⟩ := parts
  refine ⟨slot, ?_, snapshot, takes.of_eq (by rw [← hu]; rfl) (by rw [← hu]; rfl) held (by rw [sent]; rfl) (by rw [sent]; rfl),
    ⟨next, walk⟩, request, ?_, ?_⟩
  · rw [te, hseq, ← exchange_payload, ← exchange_expected c (c.snapshotTaken s)]
    refine Engine.Sends.from_parts ((v.engine l).transmit_sends _ seqBit) ?_
    rw [ve]
    exact ⟨_, _, _, _, _, _, rfl⟩
  · rw [sent, State.setEngine_other _ _ (otherLine_ne l), taken, State.setEngine_other _ _ (otherLine_ne l), ← hu]
    exact State.setEngine_other _ _ (otherLine_ne l)
  · rw [sent, taken, ← hu]
    rfl

/-- An engine that has begun to send walks no further (R61). -/
theorem SlotSent.walkOn {t : State} (h : SlotSent s l c t) (hk : (s.engine l).next = none) (k : Nat) : walkOn l k t = t :=
  walkOn_notWaiting k (h.walk.1.trans hk) (by simp [h.sends.state])

end Sent

/-! ## SLOT_BEGIN -/

section Begun

variable {s : State} {l : Line} {n : Notice} {r : ReadEntry}

/-- What a slot that has begun leaves for its sending. -/
theorem entered_ready (h : Reached s l n r) : ((entered s l n r).engine l).request = none ∧ ((entered s l n r).engine l).held = none
    ∧ ((entered s l n r).engine l).snapshot = none := by
  obtain ⟨hl, -, hs, -⟩ := h
  obtain ⟨-, hheld, hsnapshot, hrequest, -⟩ := hl.of_noSlot hs
  rw [entered_engine]
  exact ⟨hrequest, hheld, hsnapshot⟩

/-- The engine that sends its slot, from the engine that waited (R61). -/
theorem SlotSent.engine_from {u t : State} {resync : Bool} (h : SlotSent u l (slotOf s n r resync 0) t)
    (hu : u.engine l = { (s.engine l).passed r with slot := some (slotOf s n r resync 0) }) :
    (∀ {station kind expected : Byte} {window : Half} {seqBit : Bool} {payload : List Byte},
      (u.engine l).Sends (t.engine l) station kind expected window seqBit payload →
        (s.engine l).Sends (t.engine l) station kind expected window seqBit payload)
    ∧ (t.engine l).next = none ∧ (t.engine l).walk = r.index.val + 1 ∧ (t.engine l).request = (s.engine l).request := by
  refine ⟨fun sends => sends.from_parts ?_, ?_, ?_, ?_⟩
  · rw [hu]; exact ⟨_, _, _, _, _, _, rfl⟩
  · rw [h.walk.1, hu]; rfl
  · rw [h.walk.2, hu]; rfl
  · rw [h.request, hu]; rfl

/-- Settles O28. -/
theorem slotBeginSendsABroadcast : Obligations.SlotBeginSendsABroadcast := by
  unfold Obligations.SlotBeginSendsABroadcast
  intro s l n r hr h hfits hres hk image
  obtain ⟨hq, hh, hn⟩ := entered_ready h
  have kind : (slotOf s n r false 0).kindSent = kindBroadcast := hk
  have sent := sendSlot_sent (c := slotOf s n r false 0) (by rw [entered_engine]) rfl hq hh hn
  have begun : beginSlot l n r s = sendSlot l (slotOf s n r false 0) (entered s l n r) := by
    rw [beginSlot_eq, if_neg (by rw [entered_fits hres]; omega), if_neg (by rw [hk]; decide), if_pos hk]
  have run : slotBegin l s = sendSlot l (slotOf s n r false 0) (entered s l n r) := by
    rw [slotBegin_reached h, begun, sent.walkOn (by rw [entered_engine]; rfl)]
  refine ⟨_, (exec_slotBegin hr l).trans (congrArg _ run), ?_⟩
  generalize sendSlot l (slotOf s n r false 0) (entered s l n r) = t at sent
  obtain ⟨sends, next, walk, request⟩ := sent.engine_from entered_engine
  obtain ⟨held, pool, events⟩ : (t.engine l).held = none ∧ t.pool = s.pool ∧ t.events = s.events := by
    have untaken : (slotOf s n r false 0).takes = false := decide_eq_false fun ht => ht.2.1 kind
    have buffer := sent.buffer
    rw [untaken, TakesBuffer, if_neg (by simp)] at buffer
    exact buffer
  have transmits := sends sent.sends
  refine ⟨sent.slot, ?_, ?_, held, request, ?_, next, walk, transmits.sameSettings, ?_, ?_⟩
  · rw [kind] at transmits
    exact transmits
  · rw [sent.snapshot, Slot.snapshotTaken, kind]
    rfl
  · rw [transmits.notice]
    obtain ⟨-, -, -, hnotice, -⟩ := h
    exact hnotice
  · rw [sent.other]
    exact State.setEngine_other _ _ (otherLine_ne l)
  · rw [sent.frame, pool, events]
    rfl

/-! ### To a station (R64, R84) -/

/-- The slot-start read of a station that is to be sent to (R84): the record, with the countdown reloaded at a probe. -/
def Station.readToSend (x : Station) (interval : Byte) : Station :=
  if x.health = .offline then { x with probe := interval } else x

/-- The station has confirmed itself, and is sent the entry's own kind (R84). -/
def Station.confirmed (x : Station) : Bool := x.health == .online || x.health == .suspect

theorem Station.startRead_sends {x : Station} (interval : Byte) (hp : x.health ≠ .parked) (ho : x.health = .offline → x.probe = 1) :
    x.startRead interval = (x.readToSend interval, if x.confirmed then .sendKind else .sendResync) := by
  unfold Station.startRead Station.readToSend Station.confirmed
  cases hx : x.health with
  | offline => simp [ho hx]
  | parked => exact absurd hx hp
  | unknown | online | suspect => rfl

/-- The state in which a slot is sent to a station: begun, RESYNC standing in for its kind or not, and the record read (R84). -/
def readStation (s : State) (l : Line) (n : Notice) (r : ReadEntry) (i : Fin 62) (resync : Bool) : State :=
  (s.setStation l i ((s.station l i).readToSend (s.engine l).probeInterval)).setEngine l
    { (s.engine l).passed r with slot := some (slotOf s n r resync 0) }

theorem readStation_engine (i : Fin 62) (resync : Bool) :
    (readStation s l n r i resync).engine l = { (s.engine l).passed r with slot := some (slotOf s n r resync 0) } :=
  State.setEngine_same ..

/-- The slot-start read of a station that is to be sent to, and the slot that follows (R64, R84). -/
theorem startStation_sends {i : Fin 62} (hi : stationIx r.entry.station = some i) (hp : (s.station l i).health ≠ .parked)
    (ho : (s.station l i).health = .offline → (s.station l i).probe = 1) :
    let resync := !(s.station l i).confirmed && r.entry.kind != kindResync
    startStation l (slotOf s n r false 0) (entered s l n r) =
      sendSlot l (slotOf s n r resync 0) (readStation s l n r i resync) := by
  intro resync
  have read : ((entered s l n r).station l i).startRead ((entered s l n r).engine l).probeInterval =
      ((s.station l i).readToSend (s.engine l).probeInterval, if (s.station l i).confirmed then .sendKind else .sendResync) := by
    rw [entered_engine]
    exact Station.startRead_sends _ hp ho
  have hix : stationIx (slotOf s n r false 0).entry.station = some i := hi
  unfold startStation
  simp only [hix, read]
  cases hc : (s.station l i).confirmed with
  | true =>
    have unsubstituted : resync = false := by simp [resync, hc]
    rw [unsubstituted]
    rfl
  | false =>
    have substituted : resync = decide (r.entry.kind ≠ kindResync) := by simp [resync, hc, bne, Bool.beq_eq_decide_eq]
    rw [substituted, if_neg (by simp)]
    dsimp only
    have begun : ((entered s l n r).setStation l i ((s.station l i).readToSend (s.engine l).probeInterval)).setEngine l
        { (s.engine l).passed r with slot := some (slotOf s n r (decide (r.entry.kind ≠ kindResync)) 0) } =
          readStation s l n r i (decide (r.entry.kind ≠ kindResync)) :=
      State.setEngine_setEngine (s.setStation l i _) l _ _
    rw [State.setStation_engine, entered_engine, ← begun]
    rfl

theorem slotOf_kindSent (confirmed : Bool) :
    (slotOf s n r (!confirmed && r.entry.kind != kindResync) 0).kindSent = if confirmed = true then r.entry.kind else kindResync := by
  cases confirmed with
  | true => rfl
  | false =>
    by_cases hk : r.entry.kind = kindResync
    · simp [Slot.kindSent, slotOf, hk]
    · simp [Slot.kindSent, slotOf, hk]

theorem slotOf_takes {resync : Bool} (hk : (slotOf s n r resync 0).kindSent ≠ kindBroadcast) :
    (slotOf s n r resync 0).takes = (decide (r.entry.mailbox.toNat ≤ 47) && !resync) := by
  have window : r.entry.mailbox.toNat < 48 ↔ r.entry.mailbox.toNat ≤ 47 := Nat.lt_succ_iff
  have substituted : (slotOf s n r resync 0).resync = resync := rfl
  have entry : (slotOf s n r resync 0).entry = r.entry := rfl
  cases resync <;> simp [Slot.takes, substituted, entry, window, hk]

/-- Settles O27. -/
theorem slotBeginSendsToAStation : Obligations.SlotBeginSendsToAStation := by
  unfold Obligations.SlotBeginSendsToAStation
  intro s l n r i hr h hfits hi hb ho hres hp hprobe confirmed kind resync image
  obtain ⟨hq, hh, hn⟩ := entered_ready h
  have engine := readStation_engine (s := s) (l := l) (n := n) (r := r) i resync
  rw [entered_engine] at hq hh hn
  have kindSent : (slotOf s n r resync 0).kindSent = kind := slotOf_kindSent confirmed
  have notBroadcast : kind ≠ kindBroadcast := by
    show (if confirmed = true then r.entry.kind else kindResync) ≠ kindBroadcast
    split
    · exact hb
    · decide
  have sent := sendSlot_sent (s := readStation s l n r i resync) (c := slotOf s n r resync 0) (by rw [engine]) rfl
    (by rw [engine]; exact hq) (by rw [engine]; exact hh) (by rw [engine]; exact hn)
  have run : slotBegin l s = sendSlot l (slotOf s n r resync 0) (readStation s l n r i resync) := by
    rw [slotBegin_reached h, beginSlot_station hfits hres hb ho, startStation_sends hi hp hprobe]
    exact sent.walkOn (by rw [engine]; rfl) 32
  refine ⟨_, (exec_slotBegin hr l).trans (congrArg _ run), ?_⟩
  generalize sendSlot l (slotOf s n r resync 0) (readStation s l n r i resync) = t at sent
  obtain ⟨sends, next, walk, request⟩ := sent.engine_from engine
  have transmits := sends sent.sends
  have buffer := sent.buffer
  rw [slotOf_takes (by rwa [kindSent])] at buffer
  have sequence : sendSequence l (slotOf s n r resync 0).entry.station (readStation s l n r i resync) = (s.station l i).s := by
    have record : (readStation s l n r i resync).station l i = (s.station l i).readToSend (s.engine l).probeInterval :=
      s.setStation_same l i _
    have hix : stationIx (slotOf s n r resync 0).entry.station = some i := hi
    simp only [sendSequence, hix, record, Station.readToSend]
    split <;> rfl
  refine ⟨sent.slot, ?_, ?_, buffer.of_eq rfl rfl rfl rfl rfl, ?_, ?_, next, walk, request, transmits.sameSettings, ?_, ?_⟩
  · rw [kindSent, sequence] at transmits
    exact transmits
  · rw [sent.snapshot, Slot.snapshotTaken, kindSent]
    rfl
  · rw [sent.frame]
    show (s.setStation l i ((s.station l i).readToSend (s.engine l).probeInterval)).stations = _
    unfold Station.readToSend
    split
    · rfl
    · rw [State.setStation_self]
  · rw [transmits.notice]
    obtain ⟨-, -, -, hnotice, -⟩ := h
    exact hnotice
  · rw [sent.other]
    exact State.setEngine_other _ _ (otherLine_ne l)
  · rw [sent.frame]
    rfl

end Begun

end Sys2Proof.Machine
end

section
/-! FRAME_GAP_END with nothing to decide, and OPEN_SLOT_END (R60, R61, R63, R72). -/

namespace Sys2Proof.Machine

section Gaps

variable {s : State} {l : Line} {c : Slot}

/-! ## Time remaining, and the end of an OPEN slot (R60, R63) -/

theorem timeRemaining_held (s : State) (hn : c.noticeHeld = true) : timeRemaining s c = c.budgetEnd.toNat - s.timer.value.toNat :=
  if_pos hn

theorem timeRemaining_over (s : State) (hn : c.noticeHeld = false) : timeRemaining s c = 0 := if_neg (by simp [hn])

theorem isOpen_iff (c : Slot) : c.isOpen = true ↔ c.entry.kind = kindOpen := beq_iff_eq

theorem openSlotOver_iff (s : State) (l : Line) : openSlotOver l s = true ↔ ∃ c, (s.engine l).slot = some c ∧ c.entry.kind = 16
    ∧ (s.engine l).request = none ∧ c.carried = false ∧ timeRemaining s c = 0
    ∧ ((s.engine l).state = .wait ∨ (s.engine l).state = .gap) := by
  unfold openSlotOver
  cases hs : (s.engine l).slot with
  | none => simp
  | some c => simp [isOpen_iff, kindOpen, and_assoc]

theorem slotsHaveTime : SlotsHaveTime :=
  ⟨fun s c => ⟨timeRemaining_over s, fun hn => by rw [timeRemaining_held s hn]; omega⟩, openSlotOver_iff⟩

/-! ## Where the walk goes on (R61, log 12) -/

theorem slotBegin_finished (hk : (s.engine l).next = none) (h : ListFinished s l) : slotBegin l s = s := by
  unfold slotBegin
  dsimp only
  split
  · exact walkOn_finished _ hk h
  · rfl

/-- A command that ends with the step of SLOT_BEGIN goes on with the walk. -/
theorem goesOn_of_slotBegin {command : Instr} {u : State} (hr : u.inReset = false) (hk : (u.engine l).next = none)
    (h : exec command s = .next (slotBegin l u)) : GoesOn command s l u :=
  ⟨h.trans (exec_slotBegin hr l).symm, fun hf => h.trans (congrArg _ (slotBegin_finished hk hf))⟩

/-- Outside WAIT no entry is read (R61). -/
theorem readNext_notWaiting (h : (s.engine l).state ≠ .wait) : readNext l s = s := by
  unfold readNext
  dsimp only
  split
  · exact if_neg fun hw => h hw.1
  · rfl

/-! ## Gaps with nothing to decide (R72) -/

/-- The state back in WAIT, before what follows is decided (R72). -/
def backInWait (l : Line) (s : State) : State := s.setEngine l { s.engine l with state := .wait, failed := none }

theorem backInWait_engine (l : Line) (s : State) : (backInWait l s).engine l = { s.engine l with state := .wait, failed := none } :=
  State.setEngine_same ..

theorem frameGapEnd_elsewhere (h : (s.engine l).state ≠ .gap) : frameGapEnd l s = s := if_neg h

theorem frameGapEnd_nothing (hs : (s.engine l).state = .gap) (hf : (s.engine l).failed = none) :
    frameGapEnd l s = afterGap l (backInWait l s) := by
  unfold frameGapEnd
  dsimp only
  rw [if_pos hs, hf]
  rfl

theorem frameGapEnd_failed {o : Outcome} (hs : (s.engine l).state = .gap) (hf : (s.engine l).failed = some o) :
    frameGapEnd l s = retryDecision l o (backInWait l s) := by
  unfold frameGapEnd
  dsimp only
  rw [if_pos hs, hf]
  rfl

theorem afterGap_noSlot (h : (s.engine l).slot = none) : afterGap l s = slotBegin l s := by
  simp only [afterGap, h]

/-- A slot with time remaining stays, its carrying at an end (log 11). -/
theorem afterGap_stays (hc : (s.engine l).slot = some c) (ht : 0 < timeRemaining s c) :
    afterGap l s = s.setEngine l { s.engine l with slot := some { c with carried := false } } := by
  simp only [afterGap, hc]
  exact if_neg fun h => Nat.ne_of_gt ht h.2

/-- An OPEN slot without time remaining ends, and the walk goes on (R63). -/
theorem afterGap_ends (hc : (s.engine l).slot = some c) (ho : c.isOpen = true) (ht : timeRemaining s c = 0) :
    afterGap l s = slotBegin l (leaveSlot l .ok s) := by
  simp only [afterGap, hc]
  exact if_pos ⟨ho, ht⟩

/-! ## OPEN_SLOT_END (R63) -/

theorem exec_openSlotEnd (hr : s.inReset = false) (l : Line) : exec (.openSlotEnd l) s = .next (openSlotEnd l s) := by
  show Host.Outcome.next (s.event (openSlotEnd l)) = _
  rw [State.event_run hr]

theorem openSlotEnd_ends (h : openSlotOver l s = true) : openSlotEnd l s = readNext l (leaveSlot l .ok s) := if_pos h

theorem openSlotEnd_stays (h : openSlotOver l s = false) : openSlotEnd l s = s := if_neg (by simp [h])

/-- The result that the end of an OPEN slot writes (R63, R76). -/
def openResults (s : State) (l : Line) (c : Slot) : Schedule :=
  s.schedule.writeResult l c.index c.changeovers (c.result .ok (s.engine l).generation)

theorem leaveSlot_open (hc : (s.engine l).slot = some c) : leaveSlot l .ok s =
    { s.setEngine l { s.engine l with slot := none, snapshot := none } with schedule := openResults s l c } := leaveSlot_slot .ok hc

/-- An OPEN slot ends in WAIT, and the next entry is read and kept (R61). -/
theorem openSlotEnd_waiting (hc : (s.engine l).slot = some c) (h : openSlotOver l s = true) (hs : (s.engine l).state = .wait)
    (hk : (s.engine l).next = none) : openSlotEnd l s = { s.setEngine l { s.engine l with
        slot := none, snapshot := none
        next := (s.engine l).notice.bind fun n => s.schedule.entryRead s.timer.period l n (s.engine l).walk } with
      schedule := openResults s l c } := by
  rw [openSlotEnd_ends h, leaveSlot_open hc]
  generalize hu : ({ s.setEngine l { s.engine l with slot := none, snapshot := none } with schedule := openResults s l c } : State) = u
  have ue : u.engine l = { s.engine l with slot := none, snapshot := none } := by
    rw [← hu]
    exact s.setEngine_same l _
  have read : ∀ n, u.schedule.entryRead u.timer.period l n (u.engine l).walk =
      s.schedule.entryRead s.timer.period l n (s.engine l).walk := fun n => by
    rw [ue, ← hu]
    exact Schedule.entryRead_writeResult ..
  rw [readNext_answer (by rw [ue]; exact hk), if_pos ⟨by rw [ue]; exact hs, by rw [ue]⟩]
  simp only [read]
  rw [ue, ← hu]
  exact State.setEngine_setEngine (s.withSchedule (openResults s l c)) l _ _

/-- An OPEN slot ends in a frame gap (R63). -/
theorem openSlotEnd_inGap (hc : (s.engine l).slot = some c) (h : openSlotOver l s = true) (hs : (s.engine l).state = .gap) :
    openSlotEnd l s = { s.setEngine l { s.engine l with slot := none, snapshot := none } with schedule := openResults s l c } := by
  rw [openSlotEnd_ends h, leaveSlot_open hc]
  refine readNext_notWaiting ?_
  show ((s.setEngine l _).engine l).state ≠ .wait
  rw [State.setEngine_same]
  simp [hs]

/-- The end of an OPEN slot at the end of a frame gap (R63, log 11). -/
theorem leaveSlot_backInWait (hc : (s.engine l).slot = some c) : leaveSlot l .ok (backInWait l s) =
    { s.setEngine l { s.engine l with state := .wait, failed := none, slot := none, snapshot := none } with
      schedule := openResults s l c } := by
  rw [leaveSlot_open (c := c) (by rw [backInWait_engine]; exact hc), openResults, backInWait_engine]
  exact congrArg (State.withSchedule · (openResults s l c)) (State.setEngine_setEngine s l _ _)

/-- Settles O37: the gap without a slot, in an OPEN slot with time and without, and the two ends of OPEN_SLOT_END. -/
theorem gapsAndOpenSlotsEnd : Obligations.GapsAndOpenSlotsEnd := by
  unfold Obligations.GapsAndOpenSlotsEnd
  refine ⟨slotsHaveTime, fun s l hr => ?_⟩
  intro e
  have gap : exec (.frameGapEnd l) s = .next (frameGapEnd l s) := exec_frameGapEnd hr l
  have still : e.failed = none → backInWait l s = s.setEngine l { e with state := .wait } := fun hf => by
    show s.setEngine l { e with state := .wait, failed := none } = _
    rw [← hf]
  refine ⟨fun hs => ?_, fun hs hf hc hk => ?_, fun c hs hf hc ho ht => ?_, fun h => ?_, fun c hc ho => ⟨fun hl => hl.open_result hc ho,
    fun ht hq => ?_⟩⟩
  · rw [gap, frameGapEnd_elsewhere hs]
  · rw [← still hf]
    refine goesOn_of_slotBegin hr (by rw [backInWait_engine]; exact hk) ?_
    rw [gap, frameGapEnd_nothing hs hf, afterGap_noSlot (by rw [backInWait_engine]; exact hc)]
  · rw [gap, frameGapEnd_nothing hs hf, afterGap_stays (s := backInWait l s) (by rw [backInWait_engine]; exact hc) ht,
      backInWait_engine, backInWait, State.setEngine_setEngine, ← hf]
  · rw [exec_openSlotEnd hr, openSlotEnd_stays h]
  · intro left results
    have ends : c.carried = false → e.state = .wait ∨ e.state = .gap → openSlotOver l s = true := fun hcarried hs =>
      (openSlotOver_iff s l).mpr ⟨c, hc, (isOpen_iff c).mp ho, hq, hcarried, ht, hs⟩
    refine ⟨fun hs hf hk => ?_, fun hcarried hs => ?_, fun hcarried hs hk => ?_⟩
    · have ended : leaveSlot l .ok (backInWait l s) = { s.setEngine l { left with state := .wait } with schedule := results } := by
        rw [leaveSlot_backInWait hc, ← hf]
        rfl
      have slot : ((backInWait l s).engine l).slot = some c := by rw [backInWait_engine]; exact hc
      rw [← ended]
      refine goesOn_of_slotBegin (by rw [ended]; exact hr) ?_ ?_
      · rw [leaveSlot_engine .ok slot, backInWait_engine]
        exact hk
      · rw [gap, frameGapEnd_nothing hs hf, afterGap_ends slot ho ht]
    · rw [exec_openSlotEnd hr, openSlotEnd_inGap hc (ends hcarried (.inr hs)) hs]
      rfl
    · rw [exec_openSlotEnd hr, openSlotEnd_waiting hc (ends hcarried (.inl hs)) hs hk]
      rfl

end Gaps

end Sys2Proof.Machine
end

section
/-! FRAME_GAP_END after a failed attempt: another attempt, or the end of the slot or of the request (R72, R73, R75, R76, R135 to R137). -/

namespace Sys2Proof.Machine

/-! ## Attempts made again (R67, R73) -/

/-- A head's transmission begins from WAIT as from the frame gap before it. -/
theorem Engine.Sends.from_gap {e e' : Engine} {station kind expected : Byte} {window : Half} {seqBit : Bool} {payload : List Byte}
    (h : Engine.Sends { e with state := .wait, failed := none } e' station kind expected window seqBit payload) :
    e.Sends e' station kind expected window seqBit payload := h

/-- Beside its slot and its request an engine that begins an attempt keeps what it holds and where its walk stands. -/
theorem Engine.transmit_keeps (e : Engine) (x : Exchange) (seqBit : Bool) :
    (e.transmit x seqBit).snapshot = e.snapshot ∧ (e.transmit x seqBit).held = e.held ∧ (e.transmit x seqBit).notice = e.notice
      ∧ (e.transmit x seqBit).walk = e.walk ∧ (e.transmit x seqBit).next = e.next := by
  unfold Engine.transmit Engine.countAttempt
  cases e.request <;> exact ⟨rfl, rfl, rfl, rfl, rfl⟩

/-- A slot's own attempt is counted in its context (R67). -/
theorem Engine.transmit_slot {e : Engine} {c : Slot} (hq : e.request = none) (hc : e.slot = some c) (x : Exchange) (seqBit : Bool) :
    (e.transmit x seqBit).slot = some { c with attempts := c.attempts + 1 } ∧ (e.transmit x seqBit).request = e.request := by
  unfold Engine.transmit Engine.countAttempt
  simp only [hq, hc, Option.map_some, and_self]

/-- An attempt of a request is counted in the request (R135). -/
theorem Engine.transmit_request {e : Engine} {q : Request} (hq : e.request = some q) (x : Exchange) (seqBit : Bool) :
    (e.transmit x seqBit).request = some { q with attempts := q.attempts + 1 } ∧ (e.transmit x seqBit).slot = e.slot := by
  unfold Engine.transmit Engine.countAttempt
  simp only [hq, and_self]

section Decisions

variable {s : State} {l : Line} {c : Slot} {q : Request} {x : Exchange} {o : Outcome}

theorem sendSequence_eq (l : Line) (address : Byte) (s : State) :
    sendSequence l address s = (stationIx address).any fun i => (s.station l i).s := by
  unfold sendSequence
  cases stationIx address <;> rfl

theorem exchange_of_slot {e : Engine} (hq : e.request = none) (hc : e.slot = some c) : e.exchange = some (c.exchange e.snapshot) := by
  simp only [Engine.exchange, hq, hc, Option.map_some]

theorem exchange_of_request {e : Engine} (hq : e.request = some q) : e.exchange = some q.exchange := by
  simp only [Engine.exchange, hq]

/-- An attempt is made again while attempts are left and the reservation fits the time remaining (R73). -/
theorem retryAllowed_iff (hx : (s.engine l).exchange = some x) (hc : (s.engine l).slot = some c) (hres : 1 ≤ x.reservation.toNat) :
    retryAllowed l s = true ↔ (s.engine l).attempts ≤ x.retryLimit.toNat ∧ c.noticeHeld = true
      ∧ s.timer.value.toNat + x.reservation.toNat ≤ c.budgetEnd.toNat := by
  simp only [retryAllowed, hx, hc, Bool.and_eq_true, decide_eq_true_eq, le_timeRemaining s c hres]

theorem beginAttempt_exchange (hx : (s.engine l).exchange = some x) : beginAttempt l s =
    s.setEngine l ((s.engine l).transmit x (isSequenced x.kind && (stationIx x.station).any fun i => (s.station l i).s)) := by
  simp only [beginAttempt, hx, sendSequence_eq]

/-- What another attempt makes of a line in a frame gap (R73): the rest of the part is as it was. -/
structure AttemptAgain (s : State) (l : Line) (x : Exchange) (t : State) : Prop where
  sends : (s.engine l).Sends (t.engine l) x.station x.kind x.expected x.replyWindow
    (isSequenced x.kind && (stationIx x.station).any fun i => (s.station l i).s) x.payload
  snapshot : (t.engine l).snapshot = (s.engine l).snapshot
  held : (t.engine l).held = (s.engine l).held
  notice : (t.engine l).notice = (s.engine l).notice
  walk : (t.engine l).walk = (s.engine l).walk
  next : (t.engine l).next = (s.engine l).next
  ofSlot : ∀ c, (s.engine l).request = none → (s.engine l).slot = some c →
    (t.engine l).slot = some { c with attempts := c.attempts + 1 } ∧ (t.engine l).request = (s.engine l).request
  ofRequest : ∀ q, (s.engine l).request = some q →
    (t.engine l).request = some { q with attempts := q.attempts + 1 } ∧ (t.engine l).slot = (s.engine l).slot
  settings : (s.engine l).SameSettings (t.engine l)
  other : t.engine (otherLine l) = s.engine (otherLine l)
  frame : t = { s with lines := t.lines }

theorem beginAttempt_again (hx : ((backInWait l s).engine l).exchange = some x) :
    AttemptAgain s l x (beginAttempt l (backInWait l s)) := by
  have again := beginAttempt_exchange hx
  have sequence : ((stationIx x.station).any fun i => ((backInWait l s).station l i).s)
      = (stationIx x.station).any fun i => (s.station l i).s := rfl
  rw [backInWait_engine, sequence] at again
  generalize hseq : (isSequenced x.kind && (stationIx x.station).any fun i => (s.station l i).s) = seqBit at again
  have engine : (beginAttempt l (backInWait l s)).engine l =
      Engine.transmit { s.engine l with state := .wait, failed := none } x seqBit := by rw [again, State.setEngine_same]
  have sends : (s.engine l).Sends ((beginAttempt l (backInWait l s)).engine l) x.station x.kind x.expected x.replyWindow seqBit
      x.payload := by
    rw [engine]
    exact (Engine.transmit_sends _ x seqBit).from_gap
  obtain ⟨snapshot, held, notice, walk, next⟩ := Engine.transmit_keeps { s.engine l with state := .wait, failed := none } x seqBit
  rw [← engine] at snapshot held notice walk next
  refine ⟨hseq ▸ sends, snapshot, held, notice, walk, next, fun c hq hc => ?_, fun q hq => ?_, sends.sameSettings, ?_, ?_⟩
  · rw [engine]; exact Engine.transmit_slot (e := { s.engine l with state := .wait, failed := none }) hq hc x seqBit
  · rw [engine]; exact Engine.transmit_request (e := { s.engine l with state := .wait, failed := none }) hq x seqBit
  · rw [again, State.setEngine_other _ _ (otherLine_ne l)]
    exact State.setEngine_other _ _ (otherLine_ne l)
  · rw [again]
    rfl

/-! ## A slot that ends with a failure (R73, R75, R76) -/

/-- A report reaches the Station Table and the Event Queue only, and neither without a record (R87). -/
theorem reportSlot_reported (l : Line) (address : Byte) (p : Report) (s : State) : ∃ stations events,
    reportSlot l address p s = (s.withStations stations).withEvents events
    ∧ StationReported s l address p (reportSlot l address p s)
    ∧ (stationIx address = none → stations = s.stations ∧ events = s.events) := by
  cases hi : stationIx address with
  | none =>
    have unheard : reportSlot l address p s = s := by rw [reportSlot, applyReport_noRecord p hi]; rfl
    exact ⟨s.stations, s.events, unheard, fun i h => by simp [hi] at h, fun _ => ⟨rfl, rfl⟩⟩
  | some i =>
    refine ⟨_, _, reportSlot_record p hi s, fun j hj => ?_, nofun⟩
    obtain rfl : i = j := Option.some.inj (hi.symm.trans hj)
    rw [reportSlot_record p hi]
    exact ⟨rfl, rfl⟩

/-- A report depends on the Station Table, the Event Queue and three settings of the line (R87). -/
theorem StationReported.of_same {s' t t' : State} {address : Byte} {p : Report} (h : StationReported s' l address p t')
    (hstations : s'.stations = s.stations) (hevents : s'.events = s.events)
    (hthreshold : (s'.engine l).failThreshold = (s.engine l).failThreshold)
    (hprobe : (s'.engine l).probeInterval = (s.engine l).probeInterval) (hmask : (s'.engine l).mask = (s.engine l).mask)
    (tstations : t.stations = t'.stations) (tevents : t.events = t'.events) : StationReported s l address p t := by
  intro i hi
  obtain ⟨reported, appended⟩ := h i hi
  have station : s'.station l i = s.station l i := by rw [State.station, State.station, hstations]
  have record (r : Station) : (s'.setStation l i r).stations = (s.setStation l i r).stations := by
    simp only [State.setStation, State.withStations_stations, hstations]
  rw [station, hthreshold, hprobe, record] at reported
  rw [station, hthreshold, hprobe, hmask, hevents] at appended
  exact ⟨tstations.trans reported, tevents.trans appended⟩

/-- The station of a slot is told of its end, unless the slot sends to every station (R75). -/
def tellStation (l : Line) (c : Slot) (p : Report) (s : State) : State :=
  if c.kindSent = kindBroadcast then s else reportSlot l c.entry.station p s

theorem tellStation_reported (l : Line) (c : Slot) (p : Report) (s : State) : ∃ stations events,
    tellStation l c p s = (s.withStations stations).withEvents events
    ∧ (c.kindSent ≠ kindBroadcast → StationReported s l c.entry.station p (tellStation l c p s))
    ∧ (c.kindSent = kindBroadcast ∨ stationIx c.entry.station = none → stations = s.stations ∧ events = s.events) := by
  unfold tellStation
  split
  · next hk => exact ⟨s.stations, s.events, rfl, fun hn => absurd hk hn, fun _ => ⟨rfl, rfl⟩⟩
  · next hk =>
    obtain ⟨stations, events, only, reported, unheard⟩ := reportSlot_reported l c.entry.station p s
    exact ⟨stations, events, only, fun _ => reported, fun h => unheard (h.resolve_left hk)⟩

/-- The end of a slot without a kept reply: the buffer goes back, the station is told, the result is written (R75, R76). -/
theorem finishSlot_unreplied (o : Outcome) (hc : (s.engine l).slot = some c) :
    finishSlot l o none s = leaveSlot l o (tellStation l c (slotReport c o none) (returnHeld l s)) := by
  have report : c.report o none = slotReport c o none := by simp [Slot.report, finalNibble, slotReport]
  simp only [finishSlot, hc, report]
  cases o <;> rfl

/-- What the end of a failed slot leaves, from the frame gap on (R73, R75, R76). -/
theorem failedSlot_ended (hc : (s.engine l).slot = some c) (o : Outcome) (u : State)
    (hu : u = finishSlot l o none (backInWait l s)) :
    u.engine l = { s.engine l with state := .wait, failed := none, slot := none, snapshot := none, held := none }
    ∧ u.engine (otherLine l) = s.engine (otherLine l)
    ∧ u.pool = { s.pool with
        free := s.pool.free ++ (s.engine l).held.toList, episode := s.pool.episode && (s.engine l).held.isNone }
    ∧ (c.kindSent ≠ kindBroadcast → StationReported s l c.entry.station (slotReport c o none) u)
    ∧ (c.kindSent = kindBroadcast ∨ stationIx c.entry.station = none → u.stations = s.stations ∧ u.events = s.events)
    ∧ u.schedule = s.schedule.writeResult l c.index c.changeovers (c.result o (s.engine l).generation)
    ∧ u = { s with
        lines := u.lines, pool := u.pool, stations := u.stations, events := u.events, schedule := u.schedule } := by
  have slot : ((backInWait l s).engine l).slot = some c := by rw [backInWait_engine]; exact hc
  have engine := finishSlot_engine o none slot
  have other := (finishSlot_lineFrame l o none (backInWait l s)).engine _ (otherLine_ne l)
  rw [← hu] at engine other
  rw [backInWait_engine] at engine
  rw [finishSlot_unreplied o slot] at hu
  generalize hv : returnHeld l (backInWait l s) = v at hu
  have ve : v.engine l = { s.engine l with state := .wait, failed := none, held := none } := by
    rw [← hv, returnHeld_engine, backInWait_engine]
  have vp : v.pool = { s.pool with
      free := s.pool.free ++ (s.engine l).held.toList, episode := s.pool.episode && (s.engine l).held.isNone } := by
    rw [← hv, returnHeld, dropHeld, State.giveBuffer_eq, backInWait_engine]
    rfl
  have vf : v = { s with lines := v.lines, pool := v.pool } := by rw [← hv]; rfl
  obtain ⟨stations, events, only, reported, unheard⟩ := tellStation_reported l c (slotReport c o none) v
  have told : (tellStation l c (slotReport c o none) v).engine l = v.engine l := by rw [only]; rfl
  rw [leaveSlot_slot (c := c) o (by rw [told, ve]; exact hc), told, ve] at hu
  have generation : Engine.generation { s.engine l with state := .wait, failed := none, held := none } = (s.engine l).generation := rfl
  rw [generation] at hu
  refine ⟨engine, other.trans (State.setEngine_other _ _ (otherLine_ne l)), ?_, fun hk => ?_, fun h => ?_, ?_, ?_⟩
  · rw [hu, only, ← vp]; rfl
  · exact (reported hk).of_same (by rw [vf]) (by rw [vf]) (by rw [ve]) (by rw [ve]) (by rw [ve]) (by rw [hu]; rfl) (by rw [hu]; rfl)
  · obtain ⟨hstations, hevents⟩ := unheard h
    rw [hu, only, hstations, hevents, vf]
    exact ⟨rfl, rfl⟩
  · rw [hu, only, vf]; rfl
  · rw [hu, only, vf]; rfl

/-- The payload of a slot, from the snapshot that its engine holds (R65, R124). -/
theorem exchange_payload_held (c : Slot) (n : Option Snapshot) :
    (c.exchange n).payload = (n.map fun m => m.bytes.toList.take c.entry.requestLength.toNat).getD [] := by
  cases n <;> rfl

/-- A slot whose attempt failed makes another, or ends with that outcome (R73). -/
theorem failedSlotsGoOnOrEnd : FailedSlotsGoOnOrEnd := by
  intro s l c o hr hl hs hf hq hc hres
  have waiting := backInWait_engine l s
  have hq' : ((backInWait l s).engine l).request = none := by rw [waiting]; exact hq
  have hc' : ((backInWait l s).engine l).slot = some c := by rw [waiting]; exact hc
  have exchange : ((backInWait l s).engine l).exchange = some (c.exchange (s.engine l).snapshot) := by
    rw [exchange_of_slot hq' hc', waiting]
  have attempts : ((backInWait l s).engine l).attempts = c.attempts := by
    simp only [Engine.attempts, hq', hc', Option.map_some, Option.getD_some]
  have allowed : retryAllowed l (backInWait l s) = true ↔ RetryDue s c := by
    rw [retryAllowed_iff exchange hc' hres, attempts]
    rfl
  have run : exec (.frameGapEnd l) s = .next (retryDecision l o (backInWait l s)) := by
    rw [exec_frameGapEnd hr, frameGapEnd_failed hs hf]
  refine ⟨fun hdue => ?_, fun hdue => ?_⟩
  · refine ⟨beginAttempt l (backInWait l s), run.trans (congrArg _ (if_pos (allowed.mpr hdue))), ?_⟩
    have again := beginAttempt_again exchange
    obtain ⟨slot, request⟩ := again.ofSlot c hq hc
    refine ⟨slot, ?_, again.snapshot, again.held, request, again.notice, again.walk, again.next, again.settings, again.other, again.frame⟩
    have sends := again.sends
    rw [exchange_expected, exchange_payload_held] at sends
    exact sends
  · refine ⟨finishSlot l o none (backInWait l s), ?_, failedSlot_ended hc o _ rfl⟩
    obtain ⟨engine, -, -, -, -, -, frame⟩ := failedSlot_ended hc o _ rfl
    refine goesOn_of_slotBegin (by rw [frame]; exact hr) ?_ (run.trans (congrArg _ ?_))
    · rw [engine]
      exact hl.next_none (by simp [hc])
    · simp only [retryDecision, if_neg (fun h => hdue (allowed.mp h)), hq']

end Decisions

end Sys2Proof.Machine
end

section
/-! The completion of an acyclic request: after a failed attempt, and by a reply judged as a whole (R72, R73, R135 to R137). -/

namespace Sys2Proof.Machine

section Completion

variable {s : State} {l : Line} {c : Slot} {q : Request} {o : Outcome} {a : Option Attempt}

/-! ## What a completion does (R136, R137) -/

/-- The state in which the buffer of a request that is done has its header, or is back in the pool (R136). -/
def settledBuffer (l : Line) (q : Request) (o : Outcome) (a : Option Attempt) (s : State) : State :=
  match keptBuffer (s.engine l) o a, a with
  | some (b, _), some x => writeHeader l b x q.desc.tag s
  | _, _ => s.giveBuffer (s.engine l).held

/-- The event of a completion (R136). -/
def completion (s : State) (l : Line) (q : Request) (o : Outcome) (a : Option Attempt) : Event :=
  doneEvent l q o (finalNibble o a) (keptBuffer (s.engine l) o a)

/-- The appends of a completion: its own event at any place among those of its station (R136, log 5). -/
def completed (l : Line) (d : Event) (events : List Event) (s : State) : State :=
  (anyPlace s (Append.reserved l d) (events.map Append.plain)).2.appendAll
    (anyPlace s (Append.reserved l d) (events.map Append.plain)).1

theorem completed_alone (l : Line) (d : Event) (s : State) : completed l d [] s = s.withEvents (s.events.appendReserved l d) := rfl

/-- A completion appends in some order, and takes open choices besides (R136, log 5). -/
theorem completed_order (l : Line) (d : Event) (events : List Event) (s : State) :
    ∃ (order : List Append) (choices : Nat), order.Perm (Append.reserved l d :: events.map Append.plain)
      ∧ completed l d events s = (s.withChoices choices).withEvents (order.foldl EventQueue.apply s.events) := by
  obtain ⟨front, back, choices, hcut, -, hplace⟩ := anyPlace_spec s (Append.reserved l d) (events.map Append.plain)
  refine ⟨front ++ Append.reserved l d :: back, choices, by rw [hcut]; exact List.perm_middle, ?_⟩
  rw [completed, hplace]
  rfl

/-- A request that reports completes: its buffer, its station's record, the events, and then the request is gone (R136, R137). -/
theorem completeRequest_reports (hq : (s.engine l).request = some q) (ho : ¬ (o = .notReady ∨ o = .aborted)) :
    completeRequest l o a s = leaveRequest l (completed l (completion s l q o a)
      (applyReport l q.desc.station (q.report o a) (settledBuffer l q o a s)).2
      (applyReport l q.desc.station (q.report o a) (settledBuffer l q o a s)).1) := by
  simp only [completeRequest, hq, if_neg ho]
  rfl

theorem completeRequest_noRecord (hq : (s.engine l).request = some q) (ho : ¬ (o = .notReady ∨ o = .aborted))
    (hi : stationIx q.desc.station = none) : completeRequest l o a s = leaveRequest l ((settledBuffer l q o a s).withEvents
      ((settledBuffer l q o a s).events.appendReserved l (completion s l q o a))) := by
  rw [completeRequest_reports hq ho, applyReport_noRecord _ hi, completed_alone]

theorem completeRequest_record {i : Fin 62} (hq : (s.engine l).request = some q) (ho : ¬ (o = .notReady ∨ o = .aborted))
    (hi : stationIx q.desc.station = some i) {v : State} (hv : settledBuffer l q o a s = v) {record : Station}
    (hrecord : (v.station l i).report (q.report o a) (v.engine l).failThreshold (v.engine l).probeInterval = record) :
    completeRequest l o a s = leaveRequest l (completed l (completion s l q o a)
      (stationEvents l q.desc.station (v.engine l).mask (v.station l i) record (q.report o a)) (v.setStation l i record)) := by
  rw [completeRequest_reports hq ho, hv]
  simp only [applyReport, hi, hrecord]

/-! ## After a failed attempt (R73, R136) -/

theorem Outcome.Failed.not_good (h : o.Failed) : ¬ (o = .ok ∨ o = .refused) ∧ ¬ (o = .notReady ∨ o = .aborted) := by
  rcases h with rfl | rfl | rfl | rfl | rfl | rfl | rfl <;> decide

/-- A failed request has no reply to keep: its buffer goes back, and its event carries none (R136). -/
theorem settledBuffer_failed (h : o.Failed) : settledBuffer l q o none s = s.giveBuffer (s.engine l).held
    ∧ completion s l q o none = doneEvent l q o none none ∧ q.report o none =
      { kind := q.desc.kind, outcome := o, nibble := none, cycle := q.cycle, index := 255, tag := q.desc.tag, attempts := q.attempts } := by
  have kept : keptBuffer (s.engine l) o none = none := if_neg h.not_good.1
  have nibble : finalNibble o none = none := if_neg h.not_good.1
  have back : settledBuffer l q o none s = s.giveBuffer (s.engine l).held := by
    unfold settledBuffer
    cases keptBuffer (s.engine l) o none <;> rfl
  exact ⟨back, by rw [completion, kept, nibble], by rw [Request.report, nibble]⟩

/-- The engine whose request is done, back in WAIT within its OPEN slot (R63, R136). -/
def Engine.requestEnded (e : Engine) (c : Slot) : Engine :=
  { e with state := .wait, failed := none, request := none, held := none, slot := some c }

/-- What the completion of a failed request leaves, from the frame gap on (R73, R136, R137). -/
theorem failedRequest_ended (hq : (s.engine l).request = some q) (hc : (s.engine l).slot = some c) (ho : o.Failed) (u : State)
    (hu : u = completeRequest l o none (backInWait l s)) {done : Event} (hdone : done = doneEvent l q o none none) {p : Report}
    (hp : p = q.report o none) :
    u.engine l = (s.engine l).requestEnded { c with carried := decide (timeRemaining s c = 0) }
    ∧ u.engine (otherLine l) = s.engine (otherLine l)
    ∧ u.pool = { s.pool with
        free := s.pool.free ++ (s.engine l).held.toList, episode := s.pool.episode && (s.engine l).held.isNone }
    ∧ (stationIx q.desc.station = none → u.stations = s.stations
        ∧ u.events = { s.events with entries := s.events.entries ++ [done], reserved := s.events.reserved.set l false })
    ∧ (∀ i, stationIx q.desc.station = some i →
        let record := (s.station l i).report p (s.engine l).failThreshold (s.engine l).probeInterval
        u.stations = (s.setStation l i record).stations
        ∧ ∃ order : List Append, order.Perm (Append.reserved l done ::
              (stationEvents l q.desc.station (s.engine l).mask (s.station l i) record p).map Append.plain)
            ∧ u.events = order.foldl EventQueue.apply s.events)
    ∧ u = { s with
        lines := u.lines, pool := u.pool, stations := u.stations, events := u.events, choices := u.choices } := by
  have hq' : ((backInWait l s).engine l).request = some q := by rw [backInWait_engine]; exact hq
  have engine := completeRequest_engine o none hq'
  have other := (completeRequest_lineFrame l o none (backInWait l s)).engine _ (otherLine_ne l)
  rw [← hu] at engine other
  rw [backInWait_engine] at engine
  obtain ⟨settled, completion, report⟩ := settledBuffer_failed (s := backInWait l s) (l := l) (q := q) ho
  have held : ((backInWait l s).engine l).held = (s.engine l).held := by rw [backInWait_engine]
  rw [held] at settled
  generalize hv : (backInWait l s).giveBuffer (s.engine l).held = v at settled
  have ve : v.engine l = { s.engine l with state := .wait, failed := none } := by rw [← hv]; exact backInWait_engine l s
  have vp : v.pool = { s.pool with
      free := s.pool.free ++ (s.engine l).held.toList, episode := s.pool.episode && (s.engine l).held.isNone } := by
    rw [← hv, State.giveBuffer_eq]
    rfl
  have vf : v = { s with lines := v.lines, pool := v.pool } := by rw [← hv]; rfl
  have released : Engine.released { s.engine l with state := .wait, failed := none } (timeRemaining (backInWait l s)) =
      (s.engine l).requestEnded { c with carried := decide (timeRemaining s c = 0) } := by
    simp only [Engine.released, hc, Option.map_some]
    rfl
  refine ⟨engine.trans released, other.trans (State.setEngine_other _ _ (otherLine_ne l)), ?_⟩
  cases hi : stationIx q.desc.station with
  | none =>
    rw [completeRequest_noRecord hq' ho.not_good.2 hi, settled, completion] at hu
    rw [hu, hdone, ← vp, vf]
    exact ⟨rfl, fun _ => ⟨rfl, rfl⟩, nofun, rfl⟩
  | some i =>
    have vs : v.station l i = s.station l i := by rw [vf]; rfl
    generalize hrecord : (s.station l i).report p (s.engine l).failThreshold (s.engine l).probeInterval = record
    rw [completeRequest_record hq' ho.not_good.2 hi settled (record := record) (by rw [ve, vs, ← hp]; exact hrecord), completion,
      ← hdone, ← hp, ve, vs] at hu
    obtain ⟨order, choices, perm, appended⟩ := completed_order l done
      (stationEvents l q.desc.station (s.engine l).mask (s.station l i) record p) (v.setStation l i record)
    rw [hu, appended, ← vp, vf]
    refine ⟨rfl, nofun, fun j hj => ?_, rfl⟩
    obtain rfl : i = j := Option.some.inj hj
    rw [hrecord]
    exact ⟨rfl, order, perm, rfl⟩

/-- The OPEN slot of a request that has ended stays while it has time, its carrying at an end (R63). -/
theorem afterGap_requestEnded {u : State} (hu : u.engine l = (s.engine l).requestEnded { c with carried := decide (timeRemaining s c = 0) })
    (htimer : u.timer = s.timer) (ht : 0 < timeRemaining s c) : afterGap l u = u := by
  have kept : decide (timeRemaining s c = 0) = false := decide_eq_false (Nat.ne_of_gt ht)
  rw [kept] at hu
  have time : timeRemaining u { c with carried := false } = timeRemaining s c := by rw [timeRemaining, htimer]; rfl
  rw [afterGap_stays (s := u) (c := { c with carried := false }) (by rw [hu]; rfl) (by rw [time]; exact ht)]
  exact State.setEngine_self (by rw [hu]; rfl)

/-- Without time remaining the OPEN slot of a request that has ended ends too, and the walk goes on (R63, log 11). -/
theorem afterGap_requestOver {u : State} (hu : u.engine l = (s.engine l).requestEnded { c with carried := decide (timeRemaining s c = 0) })
    (htimer : u.timer = s.timer) (hschedule : u.schedule = s.schedule) (ho : c.isOpen = true) (ht : timeRemaining s c = 0) :
    afterGap l u = slotBegin l { u.setEngine l { u.engine l with slot := none, snapshot := none } with
      schedule := openResults s l c } := by
  have slot : (u.engine l).slot = some { c with carried := decide (timeRemaining s c = 0) } := by rw [hu]; rfl
  have time : timeRemaining u { c with carried := decide (timeRemaining s c = 0) } = 0 := by
    rw [← ht, timeRemaining, htimer]
    rfl
  have results : openResults u l { c with carried := decide (timeRemaining s c = 0) } = openResults s l c := by
    rw [openResults, hschedule, hu]
    rfl
  rw [afterGap_ends slot ho time, leaveSlot_open slot, results]

/-- A request whose attempt failed makes another, or completes with that outcome (R73, R135, R136). -/
theorem failedRequestsGoOnOrEnd : FailedRequestsGoOnOrEnd := by
  intro s l c q o hr hl hs hf hq hc hres
  have waiting := backInWait_engine l s
  have hq' : ((backInWait l s).engine l).request = some q := by rw [waiting]; exact hq
  have hc' : ((backInWait l s).engine l).slot = some c := by rw [waiting]; exact hc
  have attempts : ((backInWait l s).engine l).attempts = q.attempts := by simp only [Engine.attempts, hq']
  have allowed : retryAllowed l (backInWait l s) = true ↔ RequestRetryDue s c q := by
    rw [retryAllowed_iff (exchange_of_request hq') hc' hres, attempts]
    rfl
  have run : exec (.frameGapEnd l) s = .next (retryDecision l o (backInWait l s)) := by
    rw [exec_frameGapEnd hr, frameGapEnd_failed hs hf]
  refine ⟨fun hdue => ?_, fun hdue => ?_⟩
  · refine ⟨beginAttempt l (backInWait l s), run.trans (congrArg _ (if_pos (allowed.mpr hdue))), ?_⟩
    have again := beginAttempt_again (exchange_of_request hq')
    obtain ⟨request, slot⟩ := again.ofRequest q hq
    refine ⟨request, slot.trans hc, ?_, again.held, again.snapshot, again.notice, again.walk, again.next, again.settings, again.other,
      again.frame⟩
    have expected : q.exchange.expected = if q.desc.kind = kindWrite ∨ q.desc.kind = kindResync then 0 else q.desc.replyLength := by
      simp [Request.exchange, requiredLength]
    have sends := again.sends
    rw [expected] at sends
    exact sends
  · obtain ⟨-, failed⟩ := hl.of_failed hf
    have report : q.report o none =
        { kind := q.desc.kind, outcome := o, nibble := none, cycle := q.cycle, index := 255, tag := q.desc.tag, attempts := q.attempts } :=
      (settledBuffer_failed (s := s) (l := l) failed).2.2
    obtain ⟨engine, other, pool, unheard, heard, frame⟩ := failedRequest_ended hq hc failed _ rfl rfl report.symm
    have run' : exec (.frameGapEnd l) s = .next (afterGap l (completeRequest l o none (backInWait l s))) := by
      rw [run]
      simp only [retryDecision, if_neg (fun h => hdue (allowed.mp h)), hq']
    refine ⟨completeRequest l o none (backInWait l s), engine, other, pool, unheard, heard, frame, fun ht => ?_, fun ht => ?_⟩
    · rw [run', afterGap_requestEnded engine (by rw [frame]) ht]
    · have isOpen : c.isOpen = true := by simpa [hc] using hl.of_request (by simp [hq])
      refine goesOn_of_slotBegin ?_ ?_ (run'.trans (congrArg _ (afterGap_requestOver engine (by rw [frame]) (by rw [frame]) isOpen ht)))
      · show (completeRequest l o none (backInWait l s)).inReset = false
        rw [frame]
        exact hr
      · show (((completeRequest l o none (backInWait l s)).setEngine l _).engine l).next = none
        rw [State.setEngine_same, engine]
        exact hl.next_none (by simp [hc])

/-- Settles O36. -/
theorem frameGapEndRetriesOrEndsTheSlot : Obligations.FrameGapEndRetriesOrEndsTheSlot :=
  ⟨failedSlotsGoOnOrEnd, failedRequestsGoOnOrEnd⟩

end Completion

end Sys2Proof.Machine
end

section
/-! A whole reply judged OK or REFUSED completes the acyclic request (R72, R136, R137). -/

namespace Sys2Proof.Machine

section Judged

variable {s : State} {l : Line} {c : Slot} {q : Request} {o : Outcome} {a : Attempt} {r : Reply} {arrival : Capture}

theorem stationEvents_length_le (l : Line) (address : Byte) (mask : EventMask) (old new : Station) (p : Report) :
    (stationEvents l address mask old new p).length ≤ 2 := by
  have first : ∀ (h : Prop) [Decidable h] (e : Event), (if h then [e] else []).length ≤ 1 := fun h _ e => by split <;> simp
  have second : ∀ (h k : Prop) [Decidable h] [Decidable k] (e f : Event), (if h then [e] else if k then [f] else []).length ≤ 1 :=
    fun h k _ _ e f => by
      split
      · simp
      · split <;> simp
  rw [stationEvents, List.length_append]
  exact Nat.add_le_add (first ..) (second ..)

/-- What the appends of a completion do to the queue (R136, R145): the reserved event lands, nothing moves, and with room the station's
events land too. -/
theorem completed_lands (d : Event) {events : List Event} (hlen : events.length ≤ 2) (s : State) : ∃ queue choices,
    completed l d events s = (s.withChoices choices).withEvents queue
    ∧ s.events.entries <+: queue.entries ∧ queue.reserved = s.events.reserved.set l false
    ∧ d ∈ queue.entries.drop s.events.entries.length
    ∧ (s.events.load + 2 ≤ 32 → s.events.reserved.get l = true →
        queue.drops = s.events.drops ∧ ∀ e ∈ events, e ∈ queue.entries.drop s.events.entries.length) := by
  obtain ⟨choices, appends, -, hplace, lands⟩ := reservedAmong_spec l d s events s.events hlen
  refine ⟨appends.foldl EventQueue.apply s.events, choices, ?_, lands⟩
  rw [completed, hplace]
  rfl

/-- The event of a request that a reply completes (R136). -/
def repliedEvent (s : State) (l : Line) (q : Request) (o : Outcome) (r : Reply) : Event :=
  { kind := .acyclicDone, line := some l, station := q.desc.station, code := outcomeCode o, cycle := q.cycle, tag := q.desc.tag,
    entryIndex := BitVec.ofNat 8 q.index.val, bufferLength := if (s.engine l).held.isSome = true then r.length else 0,
    nibble := r.nibble, attempts := q.attempts, buffer := (s.engine l).held }

/-- The pool after a kept reply: the header of the buffer held for it is written (R101, R136). -/
def repliedPool (s : State) (l : Line) (q : Request) (a : Attempt) (r : Reply) (arrival : Capture) : Pool :=
  match (s.engine l).held with
  | none => s.pool
  | some b => { s.pool with buffers := setAt s.pool.buffers b (s.pool.buffers[b].withHeader l a r arrival q.desc.tag) }

/-- The buffer of a request that a reply completes goes with its event (R136). -/
theorem settledBuffer_replied (ho : o = .ok ∨ o = .refused) (hr : a.reply = some r) (ha : a.arrival = some arrival) :
    settledBuffer l q o (some a) s = s.withPool (repliedPool s l q a r arrival) ∧ completion s l q o (some a) = repliedEvent s l q o r := by
  have kept : a.kept = some (r, arrival) := by simp only [Attempt.kept, hr, ha]
  rw [completion, finalNibble_kept ho hr]
  cases hheld : (s.engine l).held with
  | none =>
    have buffer : keptBuffer (s.engine l) o (some a) = none := by simp only [keptBuffer, if_pos ho, hheld]
    simp only [settledBuffer, repliedPool, repliedEvent, buffer, hheld]
    exact ⟨State.giveBuffer_none s, rfl⟩
  | some b =>
    have buffer : keptBuffer (s.engine l) o (some a) = some (b, r.length) := by
      simp only [keptBuffer, if_pos ho, hheld, Option.bind_some, kept]
    simp only [settledBuffer, repliedPool, repliedEvent, buffer, hheld]
    exact ⟨writeHeader_kept _ s hr ha, rfl⟩

/-- A legal engine's attempt for a request is to the request's station (R135). -/
theorem Engine.Legal.station_of_request {e : Engine} (h : e.Legal) (ha : e.attempt = some a) (hq : e.request = some q) :
    a.station = q.desc.station := by
  obtain ⟨x, hx, hs, -⟩ := h.exchange ha
  obtain rfl : q.exchange = x := Option.some.inj ((exchange_of_request hq).symm.trans hx)
  exact hs

/-- A whole reply judged OK or REFUSED ends its attempt and its request (R70, R72). -/
theorem exec_receivedCharacter_completes {x : RxChar} {place : EdgePlace} {captured : Capture} (hreset : s.inReset = false)
    (hs : (s.engine l).state = .receive) (ha : (s.engine l).attempt = some a) (hr : a.reply = some r)
    (hq : (s.engine l).request = some q) (hrec : Receives s l place captured) (hj : judgeNext a r x = .whole o r)
    (ho : o = .ok ∨ o = .refused) :
    exec (.receivedCharacter l x.byte x.head x.framing) s = .next (completeRequest l o (some a) (s.setEngine l
      { (s.engine l).received x.framing with state := .gap, attempt := none, tx := none, elapsed := 0, failed := none })) := by
  obtain ⟨p, -, -, hexec⟩ := exec_receivedCharacter_handled hreset (by simp [hs]) hrec x
  have kept : { a with reply := some r } = a := by rw [← hr]
  rw [hexec, handleCharacter_receive p x (by rw [State.setEngine_same]; exact hs) (by rw [State.setEngine_same]; exact ha) hr, hj,
    applyJudgement, kept, endAttempt_good (by rw [State.setEngine_same]) ho]
  simp only [State.setEngine_same, State.setEngine_setEngine]
  have served : ((s.engine l).received x.framing).request.isSome = true := by
    show (s.engine l).request.isSome = true
    rw [hq]
    rfl
  rw [if_pos served]

/-- What the completion of a request by its reply leaves (R72, R136, R137), from an engine `e` in which the attempt has ended. -/
theorem repliedRequest_ended {i : Fin 62} {e : Engine} {p : Report} {record : Station} (hi : stationIx q.desc.station = some i)
    (ho : o = .ok ∨ o = .refused) (hr : a.reply = some r) (ha : a.arrival = some arrival) (hq : e.request = some q) (hc : e.slot = some c)
    (hheld : e.held = (s.engine l).held) (hsettings : (s.engine l).SameSettings e) (hp : q.report o (some a) = p)
    (hrecord : (s.station l i).report p (s.engine l).failThreshold (s.engine l).probeInterval = record) (u : State)
    (hu : u = completeRequest l o (some a) (s.setEngine l e)) :
    u.engine l = { e with request := none, held := none, slot := some { c with carried := decide (timeRemaining s c = 0) } }
    ∧ u.engine (otherLine l) = s.engine (otherLine l)
    ∧ u.stations = (s.setStation l i record).stations
    ∧ s.events.entries <+: u.events.entries ∧ u.events.reserved = s.events.reserved.set l false
    ∧ repliedEvent s l q o r ∈ u.events.entries.drop s.events.entries.length
    ∧ (s.events.load + 2 ≤ 32 → s.events.reserved.get l = true → u.events.drops = s.events.drops
        ∧ ∀ x ∈ stationEvents l q.desc.station (s.engine l).mask (s.station l i) record p,
            x ∈ u.events.entries.drop s.events.entries.length)
    ∧ u.pool = repliedPool s l q a r arrival
    ∧ u = { s with lines := u.lines, stations := u.stations, events := u.events, pool := u.pool, choices := u.choices } := by
  have engine : (s.setEngine l e).engine l = e := State.setEngine_same ..
  have hq' : ((s.setEngine l e).engine l).request = some q := by rw [engine]; exact hq
  have good : ¬ (o = .notReady ∨ o = .aborted) := by rcases ho with rfl | rfl <;> decide
  have released := completeRequest_engine o (some a) hq'
  have other := (completeRequest_lineFrame l o (some a) (s.setEngine l e)).engine _ (otherLine_ne l)
  rw [← hu] at released other
  rw [engine, Engine.released, hc] at released
  obtain ⟨settled, completion⟩ := settledBuffer_replied (s := s.setEngine l e) (l := l) (q := q) ho hr ha
  have done : repliedEvent (s.setEngine l e) l q o r = repliedEvent s l q o r := by rw [repliedEvent, repliedEvent, engine, hheld]
  have pool : repliedPool (s.setEngine l e) l q a r arrival = repliedPool s l q a r arrival := by
    rw [repliedPool, repliedPool, engine, hheld]
    rfl
  rw [pool] at settled
  rw [done] at completion
  generalize hv : (s.setEngine l e).withPool (repliedPool s l q a r arrival) = v at settled
  have ve : v.engine l = e := by rw [← hv]; exact engine
  have vs : v.station l i = s.station l i := by rw [← hv]; rfl
  obtain ⟨-, -, -, -, threshold, probe, -, mask, -⟩ := hsettings
  rw [completeRequest_record hq' good hi settled (record := record) (by rw [ve, vs, hp, threshold, probe]; exact hrecord), completion, ve,
    vs, hp, mask] at hu
  obtain ⟨queue, choices, appended, lands⟩ := completed_lands (l := l) (repliedEvent s l q o r)
    (stationEvents_length_le l q.desc.station (s.engine l).mask (s.station l i) record p) (v.setStation l i record)
  rw [appended] at hu
  have vf : v = { s with lines := v.lines, pool := repliedPool s l q a r arrival } := by rw [← hv]; rfl
  have events : u.events = queue := by rw [hu]; rfl
  have before : (v.setStation l i record).events = s.events := by rw [vf]; rfl
  rw [before, ← events] at lands
  obtain ⟨entries, reserved, landed, room⟩ := lands
  refine ⟨released, other.trans (State.setEngine_other _ _ (otherLine_ne l)), ?_, entries, reserved, landed, room, ?_, ?_⟩
  · rw [hu, vf]; rfl
  · rw [hu, vf]; rfl
  · rw [hu, vf]; rfl

/-- Settles O52: the reply's judgement ends the attempt, and the request completes with its buffer, its record and its events. -/
theorem judgedReplyCompletesTheRequest : Obligations.JudgedReplyCompletesTheRequest := by
  unfold Obligations.JudgedReplyCompletesTheRequest
  intro s l a r c q x o i place captured arrival hreset hs ha hr harr hl hq hc hi hrec hj ho p record done
  have station := hl.station_of_request ha hq
  have report : q.report o (some a) = p := by rw [Request.report, finalNibble_kept ho hr]
  rw [station] at hi ⊢
  obtain ⟨engine, other, stations, entries, reserved, landed, room, pool, frame⟩ := repliedRequest_ended (s := s) (l := l)
    (e := { (s.engine l).received x.framing with state := .gap, attempt := none, tx := none, elapsed := 0, failed := none })
    hi ho hr harr hq hc rfl ⟨rfl, rfl, rfl, rfl, rfl, rfl, rfl, rfl, rfl, rfl⟩ report rfl _ rfl
  refine ⟨_, exec_receivedCharacter_completes hreset hs ha hr hq hrec hj ho, engine, other, stations, entries, reserved, landed, room,
    fun hh => ?_, fun b hb => ?_, frame⟩
  · rw [pool, repliedPool, hh]
  · rw [pool, repliedPool, hb, ← station]
    rfl

end Judged

end Sys2Proof.Machine
end

section
/-! Station records: slot-end reports, attempt reports and slot-start reads, and the ranges they keep (sections 5.1 to 5.5). -/

namespace Sys2Proof.Machine

/-! ## Judgements of a report (R86, R87) -/

theorem Report.success_iff (p : Report) : p.success = true ↔ p.outcome = .ok ∨ (p.outcome = .refused ∧ p.kind ≠ kindResync) := by
  simp [Report.success]

theorem Report.resynced_iff (p : Report) : p.resynced = true ↔ p.outcome = .ok ∧ p.kind = kindResync := by
  simp [Report.resynced]

/-- RESYNC is no sequenced kind, so the two ways to change a send sequence exclude each other (R86). -/
theorem Report.sequence_eq (p : Report) (s : Bool) : p.sequence s =
    if p.outcome = .ok ∧ isSequenced p.kind = true then !s else if p.outcome = .ok ∧ p.kind = kindResync then false else s := by
  unfold Report.sequence
  have bare : isSequenced kindResync = false := rfl
  by_cases ho : p.outcome = .ok <;> by_cases hk : p.kind = kindResync <;> simp [ho, hk, bare]

/-- A report that is not OK, or of a kind that is neither sequenced nor RESYNC, leaves the send sequence (R86). -/
theorem Report.sequence_kept {p : Report} (h : p.outcome = .ok → isSequenced p.kind = false ∧ p.kind ≠ kindResync) (s : Bool) :
    p.sequence s = s := by
  by_cases ho : p.outcome = .ok
  · obtain ⟨hseq, hresync⟩ := h ho
    simp [p.sequence_eq, hseq, hresync]
  · simp [p.sequence_eq, ho]

/-! ## The health table (R88 to R91) -/

section Health

variable {r : Station} {p : Report} {threshold interval : Byte}

theorem Station.fail_reaches {count : Byte} (below : Health) (h : threshold.toNat ≤ count.toNat) :
    (r.fail count below threshold interval).Stands .offline count interval := by
  rw [Station.fail, if_pos h]; exact ⟨rfl, rfl, rfl⟩

theorem Station.fail_below {count : Byte} (below : Health) (h : ¬ threshold.toNat ≤ count.toNat) :
    (r.fail count below threshold interval).Stands below count r.probe := by
  rw [Station.fail, if_neg h]; exact ⟨rfl, rfl, rfl⟩

theorem Station.healthUpdate_unknown (h : r.health = .unknown) : r.healthUpdate p threshold interval =
    if p.resynced = true then { r with health := .online, failCount := 0 }
    else if p.success = true then { r with failCount := 0 }
    else r.fail (r.failCount + 1) .unknown threshold interval := by
  simp only [Station.healthUpdate, h]

/-- ONLINE, and SUSPECT after a success, are alike: ONLINE with no failure counted. -/
theorem Station.healthUpdate_success (h : r.health = .online ∨ r.health = .suspect) (hp : p.success = true) :
    (r.healthUpdate p threshold interval).Stands .online 0 r.probe := by
  rcases h with h | h <;> simp only [Station.healthUpdate, h, if_pos hp, Station.Stands, and_self]

theorem Station.healthUpdate_online (h : r.health = .online) (hp : ¬ p.success = true) :
    r.healthUpdate p threshold interval = r.fail 1 .suspect threshold interval := by
  simp only [Station.healthUpdate, h, if_neg hp]

theorem Station.healthUpdate_suspect (h : r.health = .suspect) (hp : ¬ p.success = true) :
    r.healthUpdate p threshold interval = r.fail (r.failCount + 1) .suspect threshold interval := by
  simp only [Station.healthUpdate, h, if_neg hp]

theorem Station.healthUpdate_offline (h : r.health = .offline) : r.healthUpdate p threshold interval =
    if p.resynced = true then { r with health := .online, failCount := 0 } else r := by
  simp only [Station.healthUpdate, h]

theorem Station.healthUpdate_parked (h : r.health = .parked) : r.healthUpdate p threshold interval = r := by
  simp only [Station.healthUpdate, h]

/-- The health update reads and writes the health, the fail count and the countdown, and nothing else of a record. -/
theorem Station.healthUpdate_alike {r' : Station} (h : r'.Stands r.health r.failCount r.probe) :
    r'.healthUpdate p threshold interval = { r' with
      health := (r.healthUpdate p threshold interval).health
      failCount := (r.healthUpdate p threshold interval).failCount
      probe := (r.healthUpdate p threshold interval).probe } := by
  obtain ⟨hhealth, hcount, hprobe⟩ := h
  have same : r' = { r' with health := r.health, failCount := r.failCount, probe := r.probe } := by
    rw [← hhealth, ← hcount, ← hprobe]
  have failed (count : Byte) (below : Health) : r'.fail count below threshold interval = { r' with
      health := (r.fail count below threshold interval).health
      failCount := (r.fail count below threshold interval).failCount
      probe := (r.fail count below threshold interval).probe } := by
    unfold Station.fail
    split
    · rfl
    · rw [← hprobe]
  unfold Station.healthUpdate
  rw [hhealth, hcount]
  split
  · split
    · rw [← hprobe]
    · split
      · rw [← hprobe]
      · exact failed _ _
  · split
    · rw [← hprobe]
    · exact failed _ _
  · split
    · rw [← hprobe]
    · exact failed _ _
  · split
    · rw [← hprobe]
    · exact same
  · exact same

end Health

/-! ## The record after a report (R87, R94) -/

section Reports

variable (r : Station) (p : Report) (threshold interval : Byte)

/-- A report: the health update of the record, the send sequence, the nibble of the final reply, the last exchange and the counters. -/
theorem Station.report_eq : r.report p threshold interval = { r with
    health := (r.healthUpdate p threshold interval).health
    failCount := (r.healthUpdate p threshold interval).failCount
    probe := (r.healthUpdate p threshold interval).probe
    s := p.sequence r.s
    nibble := p.nibble.getD r.nibble
    lastOutcome := p.outcome
    lastOkCycle := if p.outcome = .ok then p.cycle else r.lastOkCycle
    okCount := if p.outcome = .ok then satInc r.okCount else r.okCount
    failureCount := if p.success then r.failureCount else satInc r.failureCount } := by
  unfold Station.report
  extract_lets r1 r2
  have updated : r2 = { r1 with
      health := (r.healthUpdate p threshold interval).health
      failCount := (r.healthUpdate p threshold interval).failCount
      probe := (r.healthUpdate p threshold interval).probe } := Station.healthUpdate_alike ⟨rfl, rfl, rfl⟩
  rw [updated]
  rfl

@[simp] theorem Station.report_health : (r.report p threshold interval).health = (r.healthUpdate p threshold interval).health := by
  rw [Station.report_eq]

@[simp] theorem Station.report_s : (r.report p threshold interval).s = p.sequence r.s := by rw [Station.report_eq]

@[simp] theorem Station.report_nibble : (r.report p threshold interval).nibble = p.nibble.getD r.nibble := by rw [Station.report_eq]

theorem Station.report_stands {health : Health} {failCount probe : Byte} :
    (r.report p threshold interval).Stands health failCount probe ↔
      (r.healthUpdate p threshold interval).Stands health failCount probe := by
  rw [Station.report_eq]; rfl

end Reports

/-! ## The events of a report (R92, R93) -/

section Events

variable (l : Line) (address : Byte) (mask : EventMask) (old new : Station) (p : Report)

/-- A station event, of the record before and after its report (R92, R93, section 11.8). -/
def stationEvent (kind : EventKind) (before after : Byte) : Event :=
  { kind := kind, line := some l, station := address, code := oldNew before after, cycle := p.cycle, tag := p.tag,
    entryIndex := p.index, nibble := new.nibble, attempts := p.attempts }

/-- The health event of a report: the station came ONLINE or went OFFLINE (R92). -/
def healthEvents : List Event :=
  if new.health = .online ∧ (old.health = .unknown ∨ old.health = .offline) ∧ mask.stationOnline = true then
    [stationEvent l address new p .stationOnline (healthCode old.health) (healthCode new.health)]
  else if new.health = .offline ∧ old.health ≠ .offline ∧ mask.stationOffline = true then
    [stationEvent l address new p .stationOffline (healthCode old.health) (healthCode new.health)]
  else []

/-- The STATUS_CHANGE of a report (R93). -/
def statusEvents : List Event :=
  if new.nibble ≠ old.nibble ∧ mask.statusChange = true then
    [stationEvent l address new p .statusChange (old.nibble.setWidth 8) (new.nibble.setWidth 8)]
  else []

theorem stationEvents_eq : stationEvents l address mask old new p =
    statusEvents l address mask old new p ++ healthEvents l address mask old new p := rfl

theorem mem_statusEvents (e : Event) : e ∈ statusEvents l address mask old new p ↔
    (new.nibble ≠ old.nibble ∧ mask.statusChange = true)
    ∧ e = stationEvent l address new p .statusChange (old.nibble.setWidth 8) (new.nibble.setWidth 8) := by
  unfold statusEvents
  split <;> simp [*]

theorem mem_healthEvents (e : Event) : e ∈ healthEvents l address mask old new p ↔
    ((new.health = .online ∧ (old.health = .unknown ∨ old.health = .offline) ∧ mask.stationOnline = true)
      ∧ e = stationEvent l address new p .stationOnline (healthCode old.health) (healthCode new.health))
    ∨ ((new.health = .offline ∧ old.health ≠ .offline ∧ mask.stationOffline = true)
      ∧ e = stationEvent l address new p .stationOffline (healthCode old.health) (healthCode new.health)) := by
  unfold healthEvents
  split
  · next h => simp [h]
  · next h =>
    rw [List.mem_ite_nil_right, List.mem_singleton]
    exact ⟨.inr, fun k => k.resolve_left fun x => h x.1⟩

/-- Two codes below 16 in one byte, the old one above. -/
theorem oldNew_toNat (before after : Byte) (hb : before.toNat < 16) (ha : after.toNat < 16) :
    (oldNew before after).toNat = 16 * before.toNat + after.toNat := by
  have high : (before.setWidth 4).setWidth 8 = before := BitVec.eq_of_toNat_eq (by simp; omega)
  have code := kindByte_toNat (before.setWidth 4) after
  rw [kindByte, high] at code
  rw [oldNew, code, BitVec.toNat_setWidth]
  omega

theorem nibble_toNat (n : BitVec 4) : (n.setWidth 8 : Byte).toNat = n.toNat ∧ n.toNat < 16 :=
  ⟨by rw [BitVec.toNat_setWidth]; omega, n.isLt⟩

theorem healthCode_lt (h : Health) : (healthCode h).toNat < 16 := by cases h <;> decide

end Events

/-- Every event that a report calls for (R92, R93). -/
theorem stationEvents_each (l : Line) (address : Byte) (mask : EventMask) (old new : Station) (p : Report) :
    ∀ e ∈ stationEvents l address mask old new p, (e.kind = .statusChange ∨ e.kind = .stationOnline ∨ e.kind = .stationOffline)
      ∧ e.line = some l ∧ e.station = address ∧ e.cycle = p.cycle ∧ e.tag = p.tag ∧ e.entryIndex = p.index
      ∧ e.attempts = p.attempts ∧ e.nibble = new.nibble ∧ e.buffer = none
      ∧ e.code.toNat = if e.kind = .statusChange then 16 * old.nibble.toNat + new.nibble.toNat
          else 16 * (healthCode old.health).toNat + (healthCode new.health).toNat := by
  intro e he
  have healths := oldNew_toNat _ _ (healthCode_lt old.health) (healthCode_lt new.health)
  rw [stationEvents_eq, List.mem_append, mem_statusEvents, mem_healthEvents] at he
  rcases he with ⟨-, rfl⟩ | ⟨-, rfl⟩ | ⟨-, rfl⟩
  · obtain ⟨before, hb⟩ := nibble_toNat old.nibble
    obtain ⟨after, ha⟩ := nibble_toNat new.nibble
    have code := oldNew_toNat (old.nibble.setWidth 8) (new.nibble.setWidth 8) (by omega) (by omega)
    rw [before, after] at code
    exact ⟨.inl rfl, rfl, rfl, rfl, rfl, rfl, rfl, rfl, rfl, code⟩
  · exact ⟨.inr (.inl rfl), rfl, rfl, rfl, rfl, rfl, rfl, rfl, rfl, healths⟩
  · exact ⟨.inr (.inr rfl), rfl, rfl, rfl, rfl, rfl, rfl, rfl, rfl, healths⟩

/-- Which events a report calls for: STATUS_CHANGE first, then at most one health event (R87, R92, R93). -/
theorem stationEvents_kinds (l : Line) (address : Byte) (mask : EventMask) (old new : Station) (p : Report) :
    let events := stationEvents l address mask old new p
    ((∃ e ∈ events, e.kind = .statusChange) ↔ (new.nibble ≠ old.nibble ∧ mask.statusChange = true))
    ∧ ((∃ e ∈ events, e.kind = .stationOnline) ↔
        (new.health = .online ∧ (old.health = .unknown ∨ old.health = .offline) ∧ mask.stationOnline = true))
    ∧ ((∃ e ∈ events, e.kind = .stationOffline) ↔
        (new.health = .offline ∧ old.health ≠ .offline ∧ mask.stationOffline = true))
    ∧ ∀ e ∈ events.drop 1, e.kind ≠ .statusChange := by
  intro events
  have mem (e : Event) : e ∈ events ↔
      e ∈ statusEvents l address mask old new p ∨ e ∈ healthEvents l address mask old new p := List.mem_append
  have health : ∀ e ∈ healthEvents l address mask old new p, e.kind ≠ .statusChange := fun e he => by
    rcases (mem_healthEvents ..).mp he with ⟨-, rfl⟩ | ⟨-, rfl⟩ <;> nofun
  refine ⟨?_, ?_, ?_, fun e he => ?_⟩
  · simp only [mem, mem_statusEvents, mem_healthEvents]
    constructor
    · rintro ⟨_, ⟨h, rfl⟩ | ⟨-, rfl⟩ | ⟨-, rfl⟩, hk⟩
      · exact h
      · cases hk
      · cases hk
    · exact fun h => ⟨_, .inl ⟨h, rfl⟩, rfl⟩
  · simp only [mem, mem_statusEvents, mem_healthEvents]
    constructor
    · rintro ⟨_, ⟨-, rfl⟩ | ⟨h, rfl⟩ | ⟨-, rfl⟩, hk⟩
      · cases hk
      · exact h
      · cases hk
    · exact fun h => ⟨_, .inr (.inl ⟨h, rfl⟩), rfl⟩
  · simp only [mem, mem_statusEvents, mem_healthEvents]
    constructor
    · rintro ⟨_, ⟨-, rfl⟩ | ⟨-, rfl⟩ | ⟨h, rfl⟩, hk⟩
      · cases hk
      · cases hk
      · exact h
    · exact fun h => ⟨_, .inr (.inr ⟨h, rfl⟩), rfl⟩
  · have dropped : events.drop 1 = (statusEvents l address mask old new p).drop 1 ++ (healthEvents l address mask old new p).drop
        (1 - (statusEvents l address mask old new p).length) := List.drop_append
    have single : (statusEvents l address mask old new p).drop 1 = [] := by unfold statusEvents; split <;> rfl
    rw [dropped, single] at he
    exact health e (List.mem_of_mem_drop he)

/-- Settles O39: the health table by the record's state, the send sequence by the two kinds of OK, the events by their conditions. -/
theorem reportsUpdateTheRecord : Obligations.ReportsUpdateTheRecord := by
  unfold Obligations.ReportsUpdateTheRecord
  intro r p threshold interval t success resynced reaches
  have hsuccess : p.success = true ↔ success := p.success_iff
  have hresynced : p.resynced = true ↔ resynced := p.resynced_iff
  have stands {health : Health} {failCount probe : Byte} : t.Stands health failCount probe ↔
      (r.healthUpdate p threshold interval).Stands health failCount probe := r.report_stands p threshold interval
  have parked (h : r.health = .parked) : t.health = .parked := by
    rw [Station.report_health, Station.healthUpdate_parked h, h]
  refine ⟨⟨fun h => ?_, fun h hs => stands.mpr (Station.healthUpdate_success h (hsuccess.mpr hs)), fun h hs => ?_, fun h hs => ?_,
    fun h => ?_, fun h => ?_⟩, ?_, r.report_nibble p threshold interval, ?_, fun ho => ?_, fun ho => ?_, ?_, ?_, ?_,
    fun l address mask => ?_⟩
  · simp only [stands, Station.healthUpdate_unknown h, hsuccess, hresynced]
    refine ⟨fun hr => ?_, fun hs hr => ?_, fun hs hn => ?_, fun hs hn => ?_⟩
    · rw [if_pos hr]; exact ⟨rfl, rfl, rfl⟩
    · rw [if_neg hr, if_pos hs]; exact ⟨h, rfl, rfl⟩
    · rw [if_neg fun hr => hs (.inl hr.1), if_neg hs]; exact Station.fail_below _ hn
    · rw [if_neg fun hr => hs (.inl hr.1), if_neg hs]; exact Station.fail_reaches _ hn
  · rw [stands, Station.healthUpdate_online h (mt hsuccess.mp hs)]
    split
    · next hone => exact Station.fail_reaches _ hone
    · next hone => exact Station.fail_below _ hone
  · simp only [stands, Station.healthUpdate_suspect h (mt hsuccess.mp hs)]
    exact ⟨Station.fail_below _, Station.fail_reaches _⟩
  · simp only [stands, Station.healthUpdate_offline h, hresynced]
    refine ⟨fun hr => ?_, fun hr => ?_⟩
    · rw [if_pos hr]; exact ⟨rfl, rfl, rfl⟩
    · rw [if_neg hr]; exact ⟨h, rfl, rfl⟩
  · rw [stands, Station.healthUpdate_parked h]; exact ⟨h, rfl, rfl⟩
  · rw [Station.report_s, Report.sequence_eq]
  · simp only [t, Station.report_eq]
  · simp only [t, Station.report_eq, if_pos ho, and_self]
  · simp only [t, Station.report_eq, if_neg ho, and_self]
  · simp only [t, Station.report_eq, hsuccess]
  · simp only [t, Station.report_eq]
  · simp only [t, Station.report_eq]
  · obtain ⟨status, online, offline, first⟩ := stationEvents_kinds l address mask r t p
    refine ⟨status, online.trans ?_, offline.trans ?_, stationEvents_each l address mask r t p, first⟩
    · rw [and_left_comm]
    · constructor
      · rintro ⟨hoff, hnot, hm⟩
        refine ⟨?_, hoff, hm⟩
        cases hr : r.health with
        | unknown | online | suspect => simp
        | offline => exact absurd hr hnot
        | parked => exact absurd (hoff.symm.trans (parked hr)) nofun
      · rintro ⟨hr, hoff, hm⟩
        exact ⟨hoff, by rcases hr with hr | hr | hr <;> rw [hr] <;> nofun, hm⟩

/-! ## Attempt reports (R95) -/

section Attempts

variable (r : Station) (o : Outcome)

/-- An attempt report counts TIMEOUT in one counter, every other failed outcome in another, and changes nothing else. -/
theorem Station.attempt_eq : r.attempt o = { r with
    timeoutCount := if o = .timeout then satInc r.timeoutCount else r.timeoutCount
    corruptCount := if o.corrupt = true then satInc r.corruptCount else r.corruptCount } := by
  unfold Station.attempt
  by_cases ht : o = .timeout
  · subst ht; rfl
  · rw [if_neg ht, if_neg ht]
    split <;> rfl

theorem Station.attempt_timeout : r.attempt .timeout = { r with timeoutCount := satInc r.timeoutCount } := rfl

theorem Station.attempt_corrupt {o : Outcome} (h : o = .check ∨ o = .broken ∨ o = .length ∨ o = .address ∨ o = .sequence ∨ o = .conflict) :
    r.attempt o = { r with corruptCount := satInc r.corruptCount } := by
  rcases h with rfl | rfl | rfl | rfl | rfl | rfl <;> rfl

/-- The counts of an attempt report and the fields of a slot-end report lie apart. -/
theorem Station.attempt_report (p : Report) (threshold interval : Byte) :
    (r.attempt o).report p threshold interval = (r.report p threshold interval).attempt o := by
  have updated : (r.attempt o).healthUpdate p threshold interval = { r.attempt o with
      health := (r.healthUpdate p threshold interval).health
      failCount := (r.healthUpdate p threshold interval).failCount
      probe := (r.healthUpdate p threshold interval).probe } :=
    Station.healthUpdate_alike (by rw [Station.attempt_eq]; exact ⟨rfl, rfl, rfl⟩)
  rw [Station.report_eq, updated, Station.attempt_eq, Station.attempt_eq, Station.report_eq]

end Attempts

/-- A counter below its largest value counts on (00_scope.md, Numbers and byte order). -/
theorem satInc_toNat {x : Half} (h : x.toNat < 65535) : (satInc x).toNat = x.toNat + 1 := by
  have below : x ≠ BitVec.allOnes 16 := by rintro rfl; revert h; decide
  rw [satInc, if_neg below, BitVec.toNat_add]
  exact Nat.mod_eq_of_lt (by simp; omega)

/-- Settles O40. -/
theorem attemptReportsCount : Obligations.AttemptReportsCount := by
  unfold Obligations.AttemptReportsCount
  refine ⟨fun r o => ⟨fun h => h ▸ r.attempt_timeout, r.attempt_corrupt, r.attempt_good, r.attempt_report o⟩, fun x => satInc_toNat, rfl,
    fun l address i o s hi => ?_⟩
  simp only [reportAttempt, hi]

/-! ## Ranges of a record (section 5.1, R84, R89) -/

section Ranges

variable {r : Station} {threshold interval : Byte}

/-- The ranges of a record are about its health, its fail count and its countdown. -/
theorem Station.Legal.of_stands {r' : Station} (h : r.Legal) (hs : r'.Stands r.health r.failCount r.probe) : r'.Legal := by
  obtain ⟨hhealth, hcount, hprobe⟩ := hs
  unfold Station.Legal
  rw [hhealth, hcount, hprobe]
  exact h

/-- A record that is UNKNOWN or SUSPECT has room for one more failure. -/
theorem Station.Legal.next_failure (h : r.Legal) (hr : r.health = .unknown ∨ r.health = .suspect) :
    (r.failCount + 1).toNat = r.failCount.toNat + 1 ∧ r.failCount.toNat ≤ 14 := by
  obtain ⟨-, -, suspect, unknown, -⟩ := h
  have below : r.failCount.toNat ≤ 14 := hr.elim unknown fun hs => (suspect hs).2
  refine ⟨?_, below⟩
  rw [BitVec.toNat_add]
  exact Nat.mod_eq_of_lt (by simp; omega)

/-- A failure counted in range leaves a record in its ranges: below the threshold, or OFFLINE with the countdown loaded (R88, R89). -/
theorem Station.fail_legal {count : Byte} {below : Health} (hb : below = .unknown ∨ below = .suspect) (hlow : 1 ≤ count.toNat)
    (hhigh : count.toNat ≤ 15) (ht : threshold.toNat ≤ 15) (hi : 1 ≤ interval.toNat) :
    (r.fail count below threshold interval).Legal := by
  unfold Station.fail
  split
  · exact ⟨hhigh, nofun, nofun, nofun, fun _ => hi⟩
  · next above =>
    have under : count.toNat ≤ 14 := by omega
    rcases hb with rfl | rfl
    · exact ⟨hhigh, nofun, nofun, fun _ => under, nofun⟩
    · exact ⟨hhigh, nofun, fun _ => ⟨hlow, under⟩, nofun, nofun⟩

/-- An ONLINE record with no failure counted is in its ranges. -/
theorem Station.online_legal {probe : Byte} (h : r.Stands .online 0 probe) : r.Legal := by
  obtain ⟨hhealth, hcount, -⟩ := h
  simp [Station.Legal, hhealth, hcount]

theorem Station.healthUpdate_legal (h : r.Legal) (p : Report) (ht : threshold.toNat ≤ 15) (hi : 1 ≤ interval.toNat) :
    (r.healthUpdate p threshold interval).Legal := by
  have counted (hr : r.health = .unknown ∨ r.health = .suspect) {below : Health} (hb : below = .unknown ∨ below = .suspect) :
      (r.fail (r.failCount + 1) below threshold interval).Legal := by
    obtain ⟨next, below14⟩ := h.next_failure hr
    exact Station.fail_legal hb (by omega) (by omega) ht hi
  cases hr : r.health with
  | unknown =>
    rw [Station.healthUpdate_unknown hr]
    split
    · exact Station.online_legal ⟨rfl, rfl, rfl⟩
    · split
      · simp [Station.Legal, hr]
      · exact counted (.inl hr) (.inl rfl)
  | online =>
    by_cases hs : p.success = true
    · exact Station.online_legal (Station.healthUpdate_success (.inl hr) hs)
    · rw [Station.healthUpdate_online hr hs]
      exact Station.fail_legal (.inr rfl) (by decide) (by decide) ht hi
  | suspect =>
    by_cases hs : p.success = true
    · exact Station.online_legal (Station.healthUpdate_success (.inr hr) hs)
    · rw [Station.healthUpdate_suspect hr hs]
      exact counted (.inr hr) (.inr rfl)
  | offline =>
    rw [Station.healthUpdate_offline hr]
    split
    · exact Station.online_legal ⟨rfl, rfl, rfl⟩
    · exact h
  | parked => rw [Station.healthUpdate_parked hr]; exact h

theorem Station.report_legal (h : r.Legal) (p : Report) (ht : threshold.toNat ≤ 15) (hi : 1 ≤ interval.toNat) :
    (r.report p threshold interval).Legal :=
  (Station.healthUpdate_legal h p ht hi).of_stands ((r.report_stands p threshold interval).mpr ⟨rfl, rfl, rfl⟩)

theorem Station.attempt_legal (h : r.Legal) (o : Outcome) : (r.attempt o).Legal :=
  h.of_stands (by rw [Station.attempt_eq]; exact ⟨rfl, rfl, rfl⟩)

/-- A slot-start read counts an OFFLINE station down, from 1 to the interval again (R84). -/
theorem Station.startRead_record (r : Station) (interval : Byte) : (r.startRead interval).1 =
    if r.health = .offline then { r with probe := if r.probe - 1 = 0 then interval else r.probe - 1 } else r := by
  unfold Station.startRead
  cases hr : r.health with
  | offline => dsimp only; split <;> rfl
  | online | suspect | unknown | parked => rfl

theorem Station.startRead_legal (h : r.Legal) (hi : 1 ≤ interval.toNat) : (r.startRead interval).1.Legal := by
  rw [Station.startRead_record]
  split
  · next hr =>
    obtain ⟨count, -⟩ := h
    refine ⟨count, fun hs => absurd (hr.symm.trans hs) nofun, fun hs => absurd (hr.symm.trans hs) nofun,
      fun hs => absurd (hr.symm.trans hs) nofun, fun _ => ?_⟩
    dsimp only
    split
    · exact hi
    · next hn => bv_omega
  · exact h

end Ranges

end Sys2Proof.Machine
end

section
/-! PARK, UNPARK and CLEAR_COUNTERS (R96 to R98); PUBLISH_IMAGE, MARK_IMAGE and UNMARK_ALL (R122, R125). -/

namespace Sys2Proof.Machine

section Commands

variable {s : State} {code : Byte}

/-! ## Commands of a station -/

section Station

variable {l : Line} {i : Fin 62} {f : Station → Except CmdStatus Station}

theorem stationCommand_badArgument (hr : s.inReset = false) (h : lineArg s.host.arg0 = none ∨ stationIx s.host.arg1 = none) :
    commandAccess code (stationCommand f) s = s.refused code .badArgument := by
  refine commandAccess_error hr ?_
  simp only [stationCommand, State.withHost_host]
  split
  · next hl hi => simp [hl, hi] at h
  · rfl

theorem stationCommand_refused {answer : CmdStatus} (hr : s.inReset = false) (hl : lineArg s.host.arg0 = some l)
    (hi : stationIx s.host.arg1 = some i) (h : f (s.station l i) = .error answer) :
    commandAccess code (stationCommand f) s = s.refused code answer :=
  commandAccess_error hr (by simp only [stationCommand, State.withHost_host, hl, hi, State.withHost_station, h])

theorem stationCommand_taken {r : Machine.Station} (hr : s.inReset = false) (hl : lineArg s.host.arg0 = some l)
    (hi : stationIx s.host.arg1 = some i) (h : f (s.station l i) = .ok r) :
    commandAccess code (stationCommand f) s = { s.setStation l i r with host := s.host.accepted code } := by
  rw [commandAccess_ok (t := (s.withHost { s.host with data := none }).setStation l i r) hr
    (by simp only [stationCommand, State.withHost_host, hl, hi, State.withHost_station, h])]
  rfl

end Station

/-! ## Commands of an image -/

section Image

variable {n : Fin 64} {f : Fin 64 → ImageStore → ImageStore}

theorem imageArg_names (v : Byte) : (∀ n : Fin 64, imageArg v = some n ↔ v.toNat = n.val) ∧ (imageArg v = none ↔ 64 ≤ v.toNat) := by
  unfold imageArg
  by_cases h : v.toNat < 64
  · rw [dif_pos h]
    exact ⟨fun n => by rw [Option.some.injEq, Fin.ext_iff], by simp; omega⟩
  · rw [dif_neg h]
    exact ⟨fun n => by simp; omega, by simp; omega⟩

theorem imageCommand_badArgument (hr : s.inReset = false) (h : 64 ≤ s.host.arg0.toNat) :
    commandAccess code (imageCommand f) s = s.refused code .badArgument :=
  commandAccess_error hr (by simp only [imageCommand, State.withHost_host, (imageArg_names s.host.arg0).2.mpr h])

theorem imageCommand_taken (hr : s.inReset = false) (h : s.host.arg0.toNat = n.val) :
    commandAccess code (imageCommand f) s = { s with images := f n s.images, host := s.host.accepted code } := by
  rw [commandAccess_ok (t := (s.withHost { s.host with data := none }).withImages (f n s.images)) hr
    (by simp only [imageCommand, State.withHost_host, ((imageArg_names s.host.arg0).1 n).mpr h, State.withHost_images])]
  rfl

end Image

end Commands

/-- Settles O42. -/
theorem stationAndImageCommands : Obligations.StationAndImageCommands := by
  unfold Obligations.StationAndImageCommands
  intro s hr
  have unmarked : exec .unmarkAll s = .next { s with
      images := { s.images with marked := Vector.replicate 64 false }, host := s.host.accepted 0x32 } :=
    congrArg Host.Outcome.next (commandAccess_ok
      (command := fun t => .ok (t.withImages { t.images with marked := Vector.replicate 64 false })) hr rfl)
  refine ⟨fun h => ?_, fun l i hl hi => ⟨?_, fun hp => ?_, fun hp => ?_, ?_⟩, fun h => ?_, fun n h => ?_, _, unmarked, fun n => ?_, rfl⟩
  · have refused {code : Byte} {f : Station → Except CmdStatus Station} := congrArg (Host.Outcome.next (φ := Fault) (ρ := Refusal))
      (stationCommand_badArgument (code := code) (f := f) hr h)
    exact ⟨refused, refused, refused⟩
  · exact congrArg Host.Outcome.next (stationCommand_taken hr hl hi rfl)
  · exact congrArg Host.Outcome.next (stationCommand_taken hr hl hi (if_pos hp))
  · exact congrArg Host.Outcome.next (stationCommand_refused hr hl hi (if_neg hp))
  · exact congrArg Host.Outcome.next (stationCommand_taken hr hl hi rfl)
  · exact ⟨congrArg Host.Outcome.next (imageCommand_badArgument hr h), congrArg Host.Outcome.next (imageCommand_badArgument hr h)⟩
  · exact ⟨congrArg Host.Outcome.next (imageCommand_taken hr h), congrArg Host.Outcome.next (imageCommand_taken hr h)⟩
  · exact Vector.getElem_replicate ..

end Sys2Proof.Machine
end

section
/-! What every operation does to the Station Table and to the line settings: records and settings stay in their ranges, and a send sequence
changes with an OK report only (section 4.1, section 5.1, R84, R86, R89). -/

namespace Sys2Proof.Machine

/-! ## Steps by what they do to the table -/

/-- The settings of a line that have a range (section 4.1). -/
def Engine.settings (e : Engine) : Half × Byte × Byte × Byte × Byte :=
  (e.divisor, e.frameGap, e.charGap, e.failThreshold, e.probeInterval)

theorem Engine.SettingsLegal.of_same {e e' : Engine} (h : e.SettingsLegal) (hs : e'.settings = e.settings) : e'.SettingsLegal := by
  simp only [Engine.settings, Prod.mk.injEq] at hs
  obtain ⟨hdivisor, hframe, hchar, hfail, hprobe⟩ := hs
  unfold Engine.SettingsLegal
  rw [hdivisor, hframe, hchar, hfail, hprobe]
  exact h

/-- The Station Table and the settings are as they were. -/
structure TableSame (s t : State) : Prop where
  stations : t.stations = s.stations
  settings : ∀ l, (t.engine l).settings = (s.engine l).settings

/-- A report of line `l` may have reached the record of its address (R82, R87); all else of the table and the settings are as they were. -/
structure TableReported (l : Line) (address : Byte) (p : Report) (s t : State) : Prop where
  settings : ∀ m, (t.engine m).settings = (s.engine m).settings
  station : ∀ m i, t.station m i = s.station m i ∨ (m = l ∧ stationIx address = some i
    ∧ t.station m i = (s.station m i).report p (s.engine l).failThreshold (s.engine l).probeInterval)

/-- Every record and every setting stays in its range, and, if `quiet`, every send sequence is as it was. -/
structure TableKept (quiet : Prop) (s t : State) : Prop where
  legal : s.StationsLegal → t.StationsLegal
  sequence : quiet → ∀ l i, (t.station l i).s = (s.station l i).s

/-- A report by which no send sequence changes (R86): not OK, or of a kind that is neither sequenced nor RESYNC. -/
def Report.KeepsSequence (p : Report) : Prop := p.outcome = .ok → isSequenced p.kind = false ∧ p.kind ≠ kindResync

section Relations

variable {s t u : State} {l : Line} {address : Byte} {p : Report} {quiet : Prop}

theorem TableSame.refl (s : State) : TableSame s s := ⟨rfl, fun _ => rfl⟩

theorem TableSame.trans (h : TableSame s t) (k : TableSame t u) : TableSame s u :=
  ⟨k.stations.trans h.stations, fun l => (k.settings l).trans (h.settings l)⟩

/-- Updates of the other blocks. -/
theorem TableSame.of_blocks (hs : t.stations = s.stations) (hl : t.lines = s.lines) : TableSame s t :=
  ⟨hs, fun l => by rw [State.engine, State.engine, hl]⟩

theorem TableSame.station (h : TableSame s t) (l : Line) (i : Fin 62) : t.station l i = s.station l i := by
  rw [State.station, h.stations]; rfl

theorem TableReported.after (h : TableSame s t) (k : TableReported l address p t u) : TableReported l address p s u where
  settings m := (k.settings m).trans (h.settings m)
  station m i := by
    have same := h.settings l
    simp only [Engine.settings, Prod.mk.injEq] at same
    obtain ⟨-, -, -, hfail, hprobe⟩ := same
    rw [← h.station m i, ← hfail, ← hprobe]
    exact k.station m i

theorem TableReported.before (h : TableReported l address p s t) (k : TableSame t u) : TableReported l address p s u where
  settings m := (k.settings m).trans (h.settings m)
  station m i := by rw [k.station m i]; exact h.station m i

theorem TableKept.refl (s : State) : TableKept quiet s s := ⟨id, fun _ _ _ => rfl⟩

theorem TableKept.trans (h : TableKept quiet s t) (k : TableKept quiet t u) : TableKept quiet s u :=
  ⟨k.legal ∘ h.legal, fun hq l i => (k.sequence hq l i).trans (h.sequence hq l i)⟩

/-- What is kept under a weaker condition is kept under a stronger one. -/
theorem TableKept.mono {quiet' : Prop} (h : TableKept quiet s t) (hq : quiet' → quiet) : TableKept quiet' s t :=
  ⟨h.legal, fun k => h.sequence (hq k)⟩

theorem TableSame.kept (h : TableSame s t) : TableKept quiet s t where
  legal hl m := ⟨(hl m).1.of_same (h.settings m), fun i => by rw [h.station]; exact (hl m).2 i⟩
  sequence _ m i := by rw [h.station]

theorem TableReported.kept (h : TableReported l address p s t) : TableKept p.KeepsSequence s t where
  legal hl m := ⟨(hl m).1.of_same (h.settings m), fun i => by
    obtain ⟨-, -, -, ⟨-, hthreshold⟩, hinterval⟩ := (hl l).1
    rcases h.station m i with same | ⟨-, -, reported⟩
    · rw [same]; exact (hl m).2 i
    · rw [reported]; exact Station.report_legal ((hl m).2 i) p hthreshold hinterval⟩
  sequence hq m i := by
    rcases h.station m i with same | ⟨-, -, reported⟩
    · rw [same]
    · rw [reported, Station.report_s, Report.sequence_kept hq]

/-! ## Updates -/

/-- A line's engine changed, but for its settings, beside updates of the other blocks. -/
theorem setEngine_tableSame {e : Engine} (hs : t.stations = s.stations) (hl : t.lines = s.lines)
    (h : e.settings = (s.engine l).settings) : TableSame s (t.setEngine l e) := by
  have before : TableSame s t := .of_blocks hs hl
  refine before.trans ⟨rfl, fun m => ?_⟩
  by_cases hm : m = l
  · subst hm; rw [State.setEngine_same, h, before.settings]
  · rw [State.setEngine_other _ _ hm]

theorem setEngine_tableKept {e : Engine} (h : (s.engine l).SettingsLegal → e.SettingsLegal) : TableKept quiet s (s.setEngine l e) where
  legal hl m := ⟨by
    by_cases hm : m = l
    · subst hm; rw [State.setEngine_same]; exact h (hl m).1
    · rw [State.setEngine_other _ _ hm]; exact (hl m).1, (hl m).2⟩
  sequence _ _ _ := rfl

/-- A record is the one written where it is written, and stands elsewhere. -/
theorem State.setStation_cases (s : State) (l : Line) (i : Fin 62) (r : Station) (m : Line) (j : Fin 62) :
    (s.setStation l i r).station m j = s.station m j ∨ (m = l ∧ j = i ∧ (s.setStation l i r).station m j = r) := by
  by_cases hm : m = l
  · subst hm
    by_cases hj : j = i
    · subst hj; exact .inr ⟨rfl, rfl, State.setStation_same ..⟩
    · exact .inl (State.setStation_otherAddress _ _ _ hj)
  · exact .inl (State.setStation_otherLine _ _ _ _ hm)

theorem setStation_tableKept {i : Fin 62} {r : Station} (h : (s.engine l).SettingsLegal → (s.station l i).Legal → r.Legal)
    (hs : r.s = (s.station l i).s) : TableKept quiet s (s.setStation l i r) where
  legal hl m := ⟨(hl m).1, fun j => by
    rcases s.setStation_cases l i r m j with same | ⟨rfl, rfl, written⟩
    · rw [same]; exact (hl m).2 j
    · rw [written]; exact h (hl m).1 ((hl m).2 j)⟩
  sequence _ m j := by
    rcases s.setStation_cases l i r m j with same | ⟨rfl, rfl, written⟩
    · rw [same]
    · rw [written, hs]

end Relations

/-! ## Operations that leave the table alone -/

section Alone

variable {s : State} {l : Line}

theorem takeBuffer_tableSame (w : TakeFor) : TableSame s (takeBuffer l w s) := by
  obtain ⟨b, p, q, only⟩ := takeBuffer_only l w s
  rw [only]
  exact setEngine_tableSame rfl rfl rfl

theorem beginAttempt_tableSame : TableSame s (beginAttempt l s) := by
  have sends (e : Engine) (x : Exchange) (seqBit : Bool) : (e.transmit x seqBit).settings = e.settings := by
    unfold Engine.transmit Engine.countAttempt
    cases e.request <;> rfl
  unfold beginAttempt
  split
  · exact .refl s
  · exact setEngine_tableSame rfl rfl (sends ..)

theorem leaveSlot_tableSame (o : Outcome) : TableSame s (leaveSlot l o s) := by
  obtain ⟨results, slot, snapshot, only⟩ := leaveSlot_only l o s
  rw [only]
  exact setEngine_tableSame rfl rfl rfl

theorem returnHeld_tableSame : TableSame s (returnHeld l s) := setEngine_tableSame rfl rfl rfl

theorem writeHeader_tableSame (b : Fin 72) (a : Attempt) (label : Byte) : TableSame s (writeHeader l b a label s) := by
  unfold writeHeader
  split <;> exact .of_blocks rfl rfl

theorem settledBuffer_tableSame (q : Request) (o : Outcome) (a : Option Attempt) : TableSame s (settledBuffer l q o a s) := by
  unfold settledBuffer
  split
  · exact writeHeader_tableSame ..
  · exact .of_blocks rfl rfl

theorem publishHeld_tableSame (c : Slot) (a : Attempt) : TableSame s (publishHeld l c a s) := by
  unfold publishHeld
  split
  · next b m _ _ =>
    have published : TableSame s (publishInto m b (writeHeader l b a c.entry.label s)) :=
      (writeHeader_tableSame b a c.entry.label).trans (.of_blocks rfl rfl)
    exact published.trans (setEngine_tableSame rfl rfl rfl)
  · exact returnHeld_tableSame

theorem leaveRequest_tableSame : TableSame s (leaveRequest l s) := setEngine_tableSame rfl rfl rfl

theorem anyPlace_tableSame {α : Type} (x : α) (ys : List α) : TableSame s (anyPlace s x ys).2 := by
  unfold anyPlace
  split <;> exact .of_blocks rfl rfl

theorem readNext_tableSame : TableSame s (readNext l s) := by
  obtain ⟨x, only, -⟩ := readNext_only l s
  rw [only]
  exact setEngine_tableSame rfl rfl rfl

theorem sendSlot_tableSame (c : Slot) : TableSame s (sendSlot l c s) := by
  have snapshot : TableSame s (takeSnapshot l c s) := by
    unfold takeSnapshot
    split
    · exact setEngine_tableSame rfl rfl rfl
    · exact .refl s
  have take (u : State) : TableSame u (takeForSlot l c u) := by
    obtain ⟨b, p, q, only⟩ := takeForSlot_only l c u
    rw [only]
    exact setEngine_tableSame rfl rfl rfl
  exact (snapshot.trans (take _)).trans beginAttempt_tableSame

theorem openSlotEnd_tableSame : TableSame s (openSlotEnd l s) := by
  unfold openSlotEnd
  split
  · exact (leaveSlot_tableSame _).trans readNext_tableSame
  · exact .refl s

theorem startHead_tableSame (d : Descriptor) (c : Slot) : TableSame s (startHead l d c s) :=
  setEngine_tableSame rfl rfl rfl

theorem takeForRequest_tableSame (q : Request) : TableSame s (takeForRequest l q s) := by
  unfold takeForRequest
  split
  · exact .refl s
  · exact takeBuffer_tableSame _

theorem takeNotice_tableSame (n : Option Notice) : TableSame s (takeNotice l n s) := by
  have squeezed : TableSame s (squeezeUnbegun l s) := by
    unfold squeezeUnbegun
    split <;> exact .of_blocks rfl rfl
  unfold takeNotice
  split
  · exact .refl s
  · dsimp only
    refine TableSame.trans ?_ readNext_tableSame
    have taken := squeezed.trans (setEngine_tableSame (l := l) (e := ((squeezeUnbegun l s).engine l).takeNotice n) rfl rfl rfl)
    split
    · exact taken.trans (leaveSlot_tableSame _)
    · exact taken

theorem startEdge_tableSame : TableSame s (startEdge l s) := by
  unfold startEdge
  dsimp only
  split
  · exact .refl s
  · exact setEngine_tableSame rfl rfl rfl

theorem rxReturned_tableSame : TableSame s (rxReturned l s) := by
  unfold rxReturned
  dsimp only
  split
  · exact .refl s
  · exact setEngine_tableSame rfl rfl rfl

theorem storePayload_tableSame (x : Option (Nat × Byte)) : TableSame s (storePayload l x s) := by
  unfold storePayload
  split <;> exact .of_blocks rfl rfl

theorem charGapExpiry_tableSame : TableSame s (charGapExpiry l s) := by
  unfold charGapExpiry
  dsimp only
  split
  · split
    · exact .refl s
    · exact setEngine_tableSame rfl rfl rfl
  · exact .refl s

end Alone

/-! ## Reports (R87, R95) -/

section Reports

variable {s : State} {l : Line} {quiet : Prop}

theorem applyReport_tableReported (address : Byte) (p : Report) : TableReported l address p s (applyReport l address p s).1 := by
  unfold applyReport
  split
  · exact ⟨fun _ => rfl, fun _ _ => .inl rfl⟩
  · next i hi =>
    refine ⟨fun _ => rfl, fun m j => ?_⟩
    rcases s.setStation_cases l i ((s.station l i).report p (s.engine l).failThreshold (s.engine l).probeInterval) m j
      with same | ⟨rfl, rfl, written⟩
    · exact .inl same
    · exact .inr ⟨rfl, hi, written⟩

theorem reportSlot_tableReported (address : Byte) (p : Report) : TableReported l address p s (reportSlot l address p s) :=
  (applyReport_tableReported address p).before (.of_blocks rfl rfl)

/-- The end of a slot reports to the slot's station, unless it sent a BROADCAST (R75). -/
theorem finishSlot_table (o : Outcome) (a : Option Attempt) : TableSame s (finishSlot l o a s)
    ∨ ∃ c, (s.engine l).slot = some c ∧ TableReported l c.entry.station (c.report o a) s (finishSlot l o a s) := by
  unfold finishSlot
  split
  · exact .inl (.refl s)
  · next c hc =>
    extract_lets s1 s2
    have settled : TableSame s s1 := by
      unfold s1
      split
      · exact publishHeld_tableSame ..
      · exact returnHeld_tableSame
    by_cases hk : c.kindSent = kindBroadcast
    · rw [show s2 = s1 from if_pos hk]
      exact .inl (settled.trans (leaveSlot_tableSame _))
    · rw [show s2 = reportSlot l c.entry.station (c.report o a) s1 from if_neg hk]
      exact .inr ⟨c, hc, ((reportSlot_tableReported ..).before (leaveSlot_tableSame _)).after settled⟩

/-- The completion of a request reports to the request's station, unless it ended NOT_READY or ABORTED (R137). -/
theorem completeRequest_table (o : Outcome) (a : Option Attempt) : TableSame s (completeRequest l o a s)
    ∨ ∃ q, (s.engine l).request = some q
      ∧ TableReported l q.desc.station (q.report o a) s (completeRequest l o a s) := by
  unfold completeRequest
  split
  · exact .inl (.refl s)
  · next q hq =>
    extract_lets kept s1 reported appends
    have settled : TableSame s s1 := settledBuffer_tableSame ..
    have placed : TableSame reported.1 appends.2 := anyPlace_tableSame ..
    have left : TableSame reported.1 (leaveRequest l (appends.2.appendAll appends.1)) :=
      placed.trans (TableSame.trans (t := appends.2.appendAll appends.1) (.of_blocks rfl rfl) leaveRequest_tableSame)
    by_cases silent : o = .notReady ∨ o = .aborted
    · rw [show reported = (s1, []) from if_pos silent] at left
      exact .inl (settled.trans left)
    · rw [show reported = applyReport l q.desc.station (q.report o a) s1 from if_neg silent] at left
      exact .inr ⟨q, hq, ((applyReport_tableReported ..).before left).after settled⟩

theorem finishSlot_tableKept (o : Outcome) (a : Option Attempt)
    (h : quiet → ∀ c, (s.engine l).slot = some c → (c.report o a).KeepsSequence) : TableKept quiet s (finishSlot l o a s) := by
  rcases finishSlot_table (s := s) (l := l) o a with same | ⟨c, hc, reported⟩
  · exact same.kept
  · exact reported.kept.mono fun hq => h hq c hc

theorem completeRequest_tableKept (o : Outcome) (a : Option Attempt)
    (h : quiet → ∀ q, (s.engine l).request = some q → (q.report o a).KeepsSequence) : TableKept quiet s (completeRequest l o a s) := by
  rcases completeRequest_table (s := s) (l := l) o a with same | ⟨q, hq, reported⟩
  · exact same.kept
  · exact reported.kept.mono fun k => h k q hq

/-- An attempt report counts, in every health state (R95). -/
theorem reportAttempt_tableKept (address : Byte) (o : Outcome) : TableKept quiet s (reportAttempt l address o s) := by
  unfold reportAttempt
  split
  · exact .refl s
  · exact setStation_tableKept (fun _ h => Station.attempt_legal h o) (by rw [Station.attempt_eq])

/-- The engine's exchange is of a kind by whose OK no send sequence changes (R86). -/
def Engine.Unsequenced (e : Engine) : Prop := ∀ x, e.exchange = some x → isSequenced x.kind = false ∧ x.kind ≠ kindResync

/-- The end of an attempt changes a send sequence only by the OK of a sequenced kind or of RESYNC (R72, R86). -/
theorem endAttempt_tableKept (o : Outcome) (h : quiet → o = .ok → (s.engine l).Unsequenced) :
    TableKept quiet s (endAttempt l o s) := by
  unfold endAttempt
  split
  · exact .refl s
  · next a _ =>
    extract_lets s1 ended e s2
    have counted : TableKept quiet s s1 := by
      unfold s1
      split
      · exact .refl s
      · exact reportAttempt_tableKept ..
    have same : s1.engine l = s.engine l := by
      unfold s1
      split
      · rfl
      · exact reportAttempt_engine ..
    have idle : TableSame s1 s2 := setEngine_tableSame rfl rfl rfl
    have stopped : TableKept quiet s s2 := counted.trans idle.kept
    have exchange : (s2.engine l).exchange = (s.engine l).exchange := by
      unfold s2
      rw [State.setEngine_same, ← same]
      rfl
    split
    · refine stopped.trans ?_
      split
      · next q hq =>
        refine completeRequest_tableKept _ _ fun hquiet q' hq' ho => ?_
        exact h hquiet ho q'.exchange (by rw [← exchange, exchange_of_request hq'])
      · next hn =>
        refine finishSlot_tableKept _ _ fun hquiet c hc ho => ?_
        exact h hquiet ho _ (by rw [← exchange, exchange_of_slot hn hc])
    · exact stopped

theorem endAttempt_failed_tableKept {o : Outcome} (h : o ≠ .ok) : TableKept quiet s (endAttempt l o s) :=
  endAttempt_tableKept o fun _ ho => absurd ho h

end Reports

/-! ## The walk (R61 to R67, R72, R73, R84) -/

section Walk

variable {s : State} {l : Line} {quiet : Prop}

/-- The slot-start read counts an OFFLINE station down (R84). -/
theorem startStation_tableKept (c : Slot) : TableKept quiet s (startStation l c s) := by
  unfold startStation
  split
  · exact (sendSlot_tableSame c).kept
  · next i _ =>
    extract_lets read s1 c' e
    have counted : TableKept quiet s s1 := setStation_tableKept
      (fun ⟨_, _, _, _, hinterval⟩ h => Station.startRead_legal h hinterval)
      (by rw [Station.startRead_record]; split <;> rfl)
    split
    · exact counted.trans (leaveSlot_tableSame _).kept
    · exact counted.trans (sendSlot_tableSame c).kept
    · have substituted : TableSame s1 (s1.setEngine l { s1.engine l with slot := some c' }) := setEngine_tableSame rfl rfl rfl
      exact counted.trans (substituted.trans (sendSlot_tableSame c')).kept

theorem beginSlot_tableKept (n : Notice) (r : ReadEntry) : TableKept quiet s (beginSlot l n r s) := by
  unfold beginSlot
  extract_lets c t
  have entered : TableSame s t := setEngine_tableSame rfl rfl rfl
  split
  · exact (entered.trans (leaveSlot_tableSame _)).kept
  · split
    · exact entered.kept
    · split
      · exact (entered.trans (sendSlot_tableSame c)).kept
      · exact entered.kept.trans (startStation_tableKept c)

theorem walkOn_tableKept (k : Nat) : ∀ s : State, TableKept quiet s (walkOn l k s) := by
  induction k with
  | zero => exact .refl
  | succ k ih =>
    intro s
    unfold walkOn
    dsimp only
    have read : TableKept quiet s (readNext l s) := readNext_tableSame.kept
    split
    · split
      · exact read.trans ((beginSlot_tableKept ..).trans (ih _))
      · exact read
    · exact read

theorem slotBegin_tableKept : TableKept quiet s (slotBegin l s) := by
  unfold slotBegin
  dsimp only
  split
  · exact walkOn_tableKept _ s
  · exact .refl s

theorem afterGap_tableKept : TableKept quiet s (afterGap l s) := by
  unfold afterGap
  split
  · split
    · exact (leaveSlot_tableSame _).kept.trans slotBegin_tableKept
    · exact TableSame.kept (setEngine_tableSame rfl rfl rfl)
  · exact slotBegin_tableKept

/-- The end of a failed exchange is no OK. -/
theorem retryDecision_tableKept (o : Outcome) (h : quiet → o ≠ .ok) : TableKept quiet s (retryDecision l o s) := by
  unfold retryDecision
  split
  · exact beginAttempt_tableSame.kept
  · split
    · exact (completeRequest_tableKept o none fun hq _ _ ho => absurd ho (h hq)).trans afterGap_tableKept
    · exact (finishSlot_tableKept o none fun hq _ _ ho => absurd ho (h hq)).trans slotBegin_tableKept

theorem frameGapEnd_tableKept : TableKept (s.engine l).Legal s (frameGapEnd l s) := by
  unfold frameGapEnd
  dsimp only
  split
  · have back : TableSame s (s.setEngine l { s.engine l with state := .wait, failed := none }) := setEngine_tableSame rfl rfl rfl
    split
    · next o ho => exact back.kept.trans (retryDecision_tableKept o fun h => (h.of_failed ho).2.ne_ok.1)
    · exact back.kept.trans afterGap_tableKept
  · exact .refl s

theorem startAcyclic_tableKept : TableKept quiet s (startAcyclic l s) := by
  unfold startAcyclic
  split
  · exact .refl s
  · dsimp only
    split
    · exact (((startHead_tableSame ..).trans (takeForRequest_tableSame _)).trans beginAttempt_tableSame).kept
    · exact (startHead_tableSame ..).kept.trans (completeRequest_tableKept .notReady none fun _ _ _ ho => by cases ho)

theorem tearDown_tableKept : TableKept quiet s (tearDown l s) :=
  (completeRequest_tableKept .aborted none fun _ _ _ ho => by cases ho).trans
    (returnHeld_tableSame.trans (leaveSlot_tableSame _)).kept

theorem enableLine_tableKept {t : State} (h : enableLine l s = .ok t) : TableKept quiet s t := by
  unfold enableLine at h
  split at h <;> cases h
  exact TableSame.kept (setEngine_tableSame rfl rfl rfl)

theorem disableLine_tableKept {t : State} (h : disableLine l s = .ok t) : TableKept quiet s t := by
  unfold disableLine at h
  dsimp only at h
  split at h
  · cases h
  · split at h
    · cases h; exact .refl s
    · split at h <;> cases h <;> exact tearDown_tableKept.trans (TableSame.kept (setEngine_tableSame rfl rfl rfl))

end Walk

/-! ## Traffic (R8 to R13, R68 to R72) -/

section Traffic

variable {s : State} {l : Line} {quiet : Prop}

/-- An attempt of a BROADCAST is of an exchange by whose OK no send sequence changes. -/
theorem Engine.Legal.unsequenced {e : Engine} {a : Attempt} (h : e.Legal) (ha : e.attempt = some a) (hk : a.kind = kindBroadcast) :
    e.Unsequenced := fun x hx => by
  obtain ⟨y, hy, -, kind, -⟩ := h.exchange ha
  obtain rfl : y = x := Option.some.inj (hy.symm.trans hx)
  rw [← kind, hk]
  decide

theorem characterSent_tableKept : TableKept (s.engine l).Legal s (characterSent l s) := by
  unfold characterSent
  dsimp only
  split
  · exact .refl s
  · split
    · exact TableSame.kept (setEngine_tableSame rfl rfl rfl)
    · split
      · exact .refl s
      · next a ha =>
        split
        · exact endAttempt_failed_tableKept nofun
        · split
          · exact TableSame.kept (setEngine_tableSame rfl rfl rfl)
          · unfold frameSent
            split
            · next hk => exact endAttempt_tableKept _ fun h _ => h.unsequenced ha hk
            · exact TableSame.kept (setEngine_tableSame rfl rfl rfl)

theorem falseStart_tableKept : TableKept quiet s (falseStart l s) := by
  unfold falseStart
  dsimp only
  split
  · exact .refl s
  · have dropped (rx : Receiver) : TableSame s (s.setEngine l { s.engine l with rx := rx }) := setEngine_tableSame rfl rfl rfl
    split
    · split
      · exact (dropped _).kept.trans (endAttempt_failed_tableKept nofun)
      · exact (dropped _).kept
    · exact (dropped _).kept

theorem windowExpiry_tableKept : TableKept quiet s (windowExpiry l s) := by
  unfold windowExpiry
  dsimp only
  split
  · split
    · exact TableSame.kept (setEngine_tableSame rfl rfl rfl)
    · exact endAttempt_failed_tableKept nofun
  · exact .refl s

/-- The outcome that a quiet wait was entered with is a failure (R71). -/
theorem endQuiet_tableKept : TableKept (s.engine l).Legal s (endQuiet l s) := by
  unfold endQuiet
  dsimp only
  split
  · next a hs ha =>
    refine endAttempt_tableKept _ fun h ho => ?_
    obtain ⟨o, hj, failed⟩ := h.of_quiet ha hs
    rw [hj] at ho
    exact absurd ho failed.ne_ok.1
  · exact .refl s

/-- The character completes a reply that is judged OK (R10). -/
def Engine.CompletesOk (e : Engine) (c : RxChar) : Prop :=
  e.state = .receive ∧ ∃ a r, e.attempt = some a ∧ a.reply = some r ∧ ∃ r', judgeNext a r c = .whole .ok r'

theorem applyJudgement_tableKept (a : Attempt) (j : Judgement) : TableKept (∀ r, j ≠ .whole .ok r) s (applyJudgement l a j s) := by
  unfold applyJudgement
  split
  · next r _ =>
    have replied : TableSame s (s.setEngine l { s.engine l with
        state := .receive, elapsed := 0, attempt := some { a with reply := some r } }) := setEngine_tableSame rfl rfl rfl
    exact (replied.trans (storePayload_tableSame _)).kept
  · exact TableSame.kept (setEngine_tableSame rfl rfl rfl)
  · next o r =>
    have replied : TableSame s (s.setEngine l { s.engine l with attempt := some { a with reply := some r } }) :=
      setEngine_tableSame rfl rfl rfl
    exact replied.kept.trans (endAttempt_tableKept o fun h ho => absurd (by rw [ho]) (h r))

/-- A head is never judged as a whole reply. -/
theorem headFound_tableKept (p : Capture) (c : RxChar) : TableKept quiet s (headFound l p c s) := by
  have whole (a : Attempt) (r : Reply) : judgeHead a c ≠ .whole .ok r := by
    unfold judgeHead
    split
    · nofun
    · split <;> nofun
  unfold headFound
  extract_lets t
  have arrived : TableSame s t := setEngine_tableSame rfl rfl rfl
  split
  · exact arrived.kept.trans ((applyJudgement_tableKept ..).mono fun _ => whole _)
  · exact arrived.kept

/-- Of the characters received, one that completes a reply judged OK alone can change a send sequence. -/
theorem handleCharacter_tableKept (p : RxProgress) (c : RxChar) :
    TableKept (¬ (s.engine l).CompletesOk c) s (handleCharacter l p c s) := by
  have stray : TableSame s (countStray l s) := setEngine_tableSame rfl rfl rfl
  unfold handleCharacter
  split
  · exact stray.kept
  · exact stray.kept
  · unfold echoCharacter
    split
    · exact TableSame.kept (setEngine_tableSame rfl rfl rfl)
    · exact .refl s
  · unfold awaitCharacter
    split
    · exact headFound_tableKept ..
    · split
      · exact stray.kept.trans (endAttempt_failed_tableKept nofun)
      · exact stray.kept
  · next a hs ha =>
    unfold replyCharacter
    split
    · next r hr => exact (applyJudgement_tableKept ..).mono fun h r' hj => h ⟨hs, a, r, ha, hr, r', hj⟩
    · exact .refl s
  · exact .refl s

theorem completeCharacter_tableKept (c : RxChar) : TableKept (¬ (s.engine l).CompletesOk c) s (completeCharacter l c s) := by
  unfold completeCharacter
  split
  · exact .refl s
  · have received (rx : Receiver) : TableSame s (s.setEngine l { s.engine l with rx := rx, idle := 0 }) :=
      setEngine_tableSame rfl rfl rfl
    refine (received _).kept.trans ((handleCharacter_tableKept ..).mono fun h => ?_)
    rw [State.setEngine_same]
    exact h

end Traffic

end Sys2Proof.Machine
end

section
/-! Every row of the table, and every period of the clock, keeps the Station Table and the line settings in their ranges; a row that resets
nothing, and completes no reply judged OK, keeps every send sequence (section 4.1, section 5.1, R84, R86, R89). -/

namespace Sys2Proof.Machine

section Steps

variable {s : State} {quiet : Prop}

/-! ## Boundaries (R22, R23, R52) -/

theorem noticeBoth_tableSame (n : Option Notice) (s : State) : TableSame s (noticeBoth n s) :=
  (takeNotice_tableSame n).trans (takeNotice_tableSame n)

theorem appendBoundary_tableSame (own swap overrunA overrunB : List Event) (s : State) :
    TableSame s (appendBoundary own swap overrunA overrunB s) := by
  obtain ⟨_, _, -, appended, -⟩ := appendBoundary_adds own swap overrunA overrunB s
  rw [appended]
  exact .of_blocks rfl rfl

theorem cycleBegin_tableSame {own : Option EventKind} {u : State} (h : TableSame s u) : TableSame s (cycleBegin own u) := by
  unfold cycleBegin
  extract_lets t sch n s1
  have counted : TableSame u s1 := .of_blocks rfl rfl
  exact h.trans (counted.trans ((noticeBoth_tableSame (some n) s1).trans (appendBoundary_tableSame ..)))

theorem stopBoundary_tableSame (s : State) : TableSame s (stopBoundary s) := by
  have stopped : TableSame s (s.withTimer s.timer.stopped) := .of_blocks rfl rfl
  exact stopped.trans ((noticeBoth_tableSame none _).trans (appendBoundary_tableSame ..))

theorem endCycle_tableSame (sync : SyncState) (own : Option EventKind) (s : State) : TableSame s (endCycle sync own s) := by
  unfold endCycle
  split
  · exact cycleBegin_tableSame (.of_blocks rfl rfl)
  · exact stopBoundary_tableSame s
  · exact stopBoundary_tableSame s
  · exact .refl s

theorem ownBoundary_tableSame (s : State) : TableSame s (ownBoundary s) := by
  unfold ownBoundary
  split <;> exact endCycle_tableSame _ _ s

theorem completeTick_tableSame (s : State) : TableSame s (completeTick s) := by
  unfold completeTick
  split
  · split
    · exact ownBoundary_tableSame s
    · exact .of_blocks rfl rfl
  · exact .refl s

theorem syncEdge_tableSame (s : State) : TableSame s (syncEdge s) := by
  unfold syncEdge
  extract_lets t s1
  have seen : TableSame s s1 := .of_blocks rfl rfl
  split
  · split
    · exact seen
    · split
      · exact seen
      · exact cycleBegin_tableSame (.of_blocks rfl rfl)
      · split
        · exact seen.trans (endCycle_tableSame ..)
        · exact .of_blocks rfl rfl
      · exact seen.trans (endCycle_tableSame ..)
  · exact .refl s

/-! ## What a moment owes (log 8) -/

theorem settleLine_tableKept (l : Line) (s : State) : TableKept quiet s (settleLine l s) :=
  openSlotEnd_tableSame.kept.trans (slotBegin_tableKept.trans (startAcyclic_tableKept.trans
    (startAcyclic_tableKept.trans (startAcyclic_tableKept.trans startAcyclic_tableKept))))

theorem settle_tableKept (s : State) : TableKept quiet s (settle s) := by
  have drawn : TableSame s s.drawn := .of_blocks rfl rfl
  unfold settle
  dsimp only
  split
  · split
    · split
      · exact drawn.kept.trans ((settleLine_tableKept .a _).trans (settleLine_tableKept .b _))
      · exact drawn.kept.trans ((settleLine_tableKept .b _).trans (settleLine_tableKept .a _))
    · exact settleLine_tableKept .a s
  · split
    · exact settleLine_tableKept .b s
    · exact .refl s

theorem claimEdge_tableSame (l : Line) (s t : State) : TableSame t (claimEdge l s t) := by
  rcases claimEdge_cases l s t with h | ⟨-, -, h⟩
  · rw [h]; exact .refl t
  · rw [h]; exact setEngine_tableSame rfl rfl rfl

theorem settleMoment_tableKept (s : State) : TableKept quiet s (settleMoment s) :=
  (settle_tableKept s).trans ((claimEdge_tableSame .a s _).trans (claimEdge_tableSame .b s _)).kept

/-! ## The blocks beside the lines -/

theorem endCheck_tableSame (s : State) : TableSame s (endCheck s) := by
  unfold endCheck
  split
  · split <;> exact .of_blocks rfl rfl
  · exact .refl s

theorem endCopy_tableSame (s : State) : TableSame s (endCopy s) := by
  unfold endCopy
  split <;> exact .of_blocks rfl rfl

theorem checkMove_tableSame (s : State) : TableSame s (checkMove s) := by
  rcases checkMove_cases (s := s) with h | h | ⟨p, h⟩
  · rw [h]; exact .refl s
  · rw [h]; exact endCheck_tableSame s
  · rw [h]; exact .of_blocks rfl rfl

theorem checkMoves_tableSame (n : Nat) : ∀ s, TableSame s (checkMoves n s) := by
  induction n with
  | zero => exact .refl
  | succ n ih => exact fun s => (checkMove_tableSame s).trans (ih _)

theorem storeAct_tableSame (s : State) : TableSame s (storeAct s) := by
  have drawn : TableSame s s.drawn := .of_blocks rfl rfl
  unfold storeAct
  dsimp only
  split
  · split
    · exact drawn.trans (endCheck_tableSame _)
    · exact drawn.trans (checkMoves_tableSame ..)
  · split
    · split
      · exact drawn.trans (endCopy_tableSame _)
      · split
        · exact drawn.trans (endCopy_tableSame _)
        · exact drawn
    · exact .refl s

theorem windowRead_tableSame (w : WinTarget) (s : State) : TableSame s (windowRead w s).2 := by
  obtain ⟨latch, winError, schedule, choices, -, only, -⟩ := windowRead_only w s
  rw [only]
  exact .of_blocks rfl rfl

theorem windowWrite_tableSame (w : WinTarget) (v : Byte) (s : State) : TableSame s (windowWrite w v s) := by
  have pending (f : Bank → Bank) : TableSame s (writePending f s) := by
    unfold writePending
    split <;> exact .of_blocks rfl rfl
  unfold windowWrite
  split
  · exact pending _
  · exact pending _
  all_goals exact .of_blocks rfl rfl

theorem plainWrite_tableSame (offset : BitVec 6) (v : Byte) (s : State) : TableSame s (plainWrite offset v s) := by
  unfold plainWrite
  split <;> exact .of_blocks rfl rfl

/-! ## Commands -/

/-- A command that leaves the Station Table and the settings alone. -/
def TableFree (command : State → Except CmdStatus State) : Prop := ∀ s t, command s = .ok t → TableSame s t

theorem startCycles_tableFree : TableFree startCycles := by
  intro s t h
  unfold startCycles at h
  split at h <;> cases h
  · exact cycleBegin_tableSame (.of_blocks rfl rfl)
  · exact .of_blocks rfl rfl
  · exact .of_blocks rfl rfl

theorem stopCycles_tableFree : TableFree stopCycles := by
  intro s t h
  unfold stopCycles at h
  split at h
  · split at h <;> cases h <;> exact .of_blocks rfl rfl
  · cases h; exact .of_blocks rfl rfl
  · cases h; exact .refl _
  · cases h

theorem singleCycle_tableFree : TableFree singleCycle := by
  intro s t h
  unfold singleCycle at h
  split at h <;> cases h
  exact cycleBegin_tableSame (.of_blocks rfl rfl)

theorem scheduleCommand_tableFree (f : Schedule → Except CmdStatus Schedule) : TableFree (scheduleCommand f) := by
  intro s t h
  unfold scheduleCommand at h
  split at h <;> cases h
  exact .of_blocks rfl rfl

theorem imageCommand_tableFree (f : Fin 64 → ImageStore → ImageStore) : TableFree (imageCommand f) := by
  intro s t h
  unfold imageCommand at h
  split at h <;> cases h
  exact .of_blocks rfl rfl

theorem mailboxCommand_tableFree {f : Fin 48 → Mailbox → State → Except CmdStatus State} (h : ∀ i m, TableFree (f i m)) :
    TableFree (mailboxCommand f) := by
  intro s t ht
  unfold mailboxCommand at ht
  split at ht
  · exact h _ _ s t ht
  · cases ht

theorem claimMailbox_tableFree (i : Fin 48) (m : Mailbox) : TableFree (claimMailbox i m) := by
  intro s t h
  unfold claimMailbox at h
  split at h <;> cases h
  exact .of_blocks rfl rfl

theorem releaseMailbox_tableFree (i : Fin 48) (m : Mailbox) : TableFree (releaseMailbox i m) := by
  intro s t h
  unfold releaseMailbox at h
  split at h <;> cases h <;> exact .of_blocks rfl rfl

theorem flushMailbox_tableFree (i : Fin 48) (m : Mailbox) : TableFree (flushMailbox i m) := by
  intro s t h
  cases h
  exact .of_blocks rfl rfl

theorem postRequest_tableFree : TableFree postRequest := by
  intro s t h
  unfold postRequest at h
  dsimp only at h
  split at h
  · cases h
  · split at h
    · cases h
    · split at h <;> cases h
      exact .of_blocks rfl rfl

theorem cancelRequest_tableFree : TableFree cancelRequest := by
  intro s t h
  unfold cancelRequest at h
  dsimp only at h
  split at h
  · cases h
  · split at h
    · cases h; exact .of_blocks rfl rfl
    · split at h <;> cases h

theorem popEvent_tableFree : TableFree popEvent := by
  intro s t h
  unfold popEvent at h
  split at h <;> cases h
  exact .of_blocks rfl rfl

/-- A station command whose update of a record keeps the send sequence and the ranges. -/
theorem stationCommand_tableKept {f : Station → Except CmdStatus Station} (h : ∀ r r', f r = .ok r' → (r.Legal → r'.Legal) ∧ r'.s = r.s)
    (s t : State) (ht : stationCommand f s = .ok t) : TableKept quiet s t := by
  unfold stationCommand at ht
  split at ht
  · split at ht <;> cases ht
    next r hr =>
    obtain ⟨legal, sequence⟩ := h _ r hr
    exact setStation_tableKept (fun _ => legal) sequence
  · cases ht

/-- A parked record has no bounds on its fail count but the common one (R96). -/
theorem parkStation_kept (r r' : Station) (h : parkStation r = .ok r') : (r.Legal → r'.Legal) ∧ r'.s = r.s := by
  cases h
  exact ⟨fun legal => ⟨legal.1, nofun, nofun, nofun, nofun⟩, rfl⟩

theorem unparkStation_kept (r r' : Station) (h : unparkStation r = .ok r') : (r.Legal → r'.Legal) ∧ r'.s = r.s := by
  unfold unparkStation at h
  split at h <;> cases h
  exact ⟨fun _ => ⟨Nat.zero_le _, nofun, nofun, fun _ => Nat.zero_le _, nofun⟩, rfl⟩

theorem clearStation_kept (r r' : Station) (h : clearStation r = .ok r') : (r.Legal → r'.Legal) ∧ r'.s = r.s := by
  cases h
  exact ⟨id, rfl⟩

theorem lineCommand_tableKept {f : Line → State → Except CmdStatus State} (h : ∀ l s t, f l s = .ok t → TableKept quiet s t)
    (s t : State) (ht : lineCommand f s = .ok t) : TableKept quiet s t := by
  unfold lineCommand at ht
  split at ht
  · exact h _ s t ht
  · cases ht

/-! ## Accesses and events -/

theorem access_tableKept {f : State → State} (h : ∀ u, TableKept quiet u (f u)) : TableKept quiet s (s.access f) := by
  unfold State.access
  split
  · exact .refl s
  · have released : TableSame s (s.withHost { s.host with data := none }) := .of_blocks rfl rfl
    exact released.kept.trans (h _)

theorem event_tableKept {f : State → State} (h : TableKept quiet s (f s)) : TableKept quiet s (s.event f) := by
  unfold State.event
  split
  · exact .refl s
  · exact h

theorem commandAccess_tableKept {command : State → Except CmdStatus State} (code : Byte)
    (h : ∀ u t, command u = .ok t → TableKept quiet u t) : TableKept quiet s (commandAccess code command s) :=
  access_tableKept fun u => by
    have answered (t : State) (x : HostPort) : TableSame t (t.withHost x) := .of_blocks rfl rfl
    unfold State.give
    split
    · next t ht => exact (h u t ht).trans (answered t _).kept
    · exact (answered u _).kept

/-- A written setting fits its range (R55). -/
theorem Engine.SettingsLegal.withSetting {e : Engine} (h : e.SettingsLegal) {which : LineSetting} {v : Byte}
    (hv : settingFits which v = true) : (e.withSetting which v).SettingsLegal := by
  obtain ⟨hdivisor, hframe, hchar, hfail, hprobe⟩ := h
  cases which with
  | frameGap => exact ⟨hdivisor, of_decide_eq_true hv, hchar, hfail, hprobe⟩
  | charGap => exact ⟨hdivisor, hframe, of_decide_eq_true hv, hfail, hprobe⟩
  | failThreshold => exact ⟨hdivisor, hframe, hchar, of_decide_eq_true hv, hprobe⟩
  | probeInterval => exact ⟨hdivisor, hframe, hchar, hfail, of_decide_eq_true hv⟩
  | lineFlags | eventMask => exact ⟨hdivisor, hframe, hchar, hfail, hprobe⟩

/-! ## Every row -/

/-- Both engines are legal, and the row neither resets nor completes a reply judged OK. -/
structure RowQuiet (c : Instr) (s : State) : Prop where
  engines : ∀ l, (s.engine l).Legal
  noReset : ¬ isReset c
  noReply : ∀ l byte head framing, c = .receivedCharacter l byte head framing →
    ¬ (s.engine l).CompletesOk { byte := byte, head := head, framing := framing }

/-- A row keeps the ranges, and, if it is quiet, the send sequences. -/
def RowTable (c : Instr) (s : State) : Prop := ∃ t, exec c s = .next t ∧ TableKept (RowQuiet c s) s t

theorem rowTable_access {c : Instr} {f : State → State} (h : exec c s = .next (s.access f))
    (k : ∀ u, TableKept (RowQuiet c s) u (f u)) : RowTable c s := ⟨_, h, access_tableKept k⟩

/-- An access that has no part in the table or the settings. -/
theorem rowTable_free {c : Instr} {f : State → State} (h : exec c s = .next (s.access f)) (k : ∀ u, TableSame u (f u)) : RowTable c s :=
  rowTable_access h fun u => (k u).kept

theorem rowTable_event {c : Instr} {f : State → State} (h : exec c s = .next (s.event f)) (k : TableKept (RowQuiet c s) s (f s)) :
    RowTable c s := ⟨_, h, event_tableKept k⟩

theorem rowTable_command {c : Instr} {code : Byte} {command : State → Except CmdStatus State}
    (h : exec c s = .next (commandAccess code command s)) (k : ∀ u t, command u = .ok t → TableKept (RowQuiet c s) u t) : RowTable c s :=
  ⟨_, h, commandAccess_tableKept code k⟩

theorem rowTable_otherBlock {c : Instr} {code : Byte} {command : State → Except CmdStatus State}
    (h : exec c s = .next (commandAccess code command s)) (k : TableFree command) : RowTable c s :=
  rowTable_command h fun u t ht => (k u t ht).kept

/-- A reset leaves table and settings in their reset state (R165, R166). -/
theorem reset_tableKept {c : Instr} {t u : State} (hs : u.stations = State.reset.stations) (hl : u.lines = State.reset.lines)
    (hc : isReset c) : TableKept (RowQuiet c s) t u where
  legal _ := by
    have reset : TableSame State.reset u := .of_blocks hs hl
    exact (reset.kept (quiet := True)).legal State.reset_stationsLegal
  sequence h := absurd hc h.noReset

/-- A start edge is no part of what the character's completion is judged by. -/
theorem startEdge_completesOk {l : Line} {c : RxChar} : ((startEdge l s).engine l).CompletesOk c ↔ (s.engine l).CompletesOk c := by
  unfold startEdge
  dsimp only
  split
  · exact Iff.rfl
  · rw [State.setEngine_same]; exact Iff.rfl

theorem rowTable_line {c : Instr} {l : Line} (hl : lineOf c = some l) (s : State) : RowTable c s := by
  cases c <;> cases hl
  case slotBegin => exact rowTable_event rfl slotBegin_tableKept
  case characterTransmitted => exact rowTable_event rfl (characterSent_tableKept.mono fun h => h.engines l)
  case receivedCharacter byte head framing =>
    exact rowTable_event rfl (startEdge_tableSame.kept.trans ((completeCharacter_tableKept _).mono fun h => by
      rw [startEdge_completesOk]
      exact h.noReply l byte head framing rfl))
  case falseStart => exact rowTable_event rfl falseStart_tableKept
  case replyWindowExpiry => exact rowTable_event rfl windowExpiry_tableKept
  case characterGapExpiry => exact rowTable_event rfl charGapExpiry_tableSame.kept
  case quietIdleExpiry =>
    refine rowTable_event rfl ?_
    split
    · exact .refl s
    · exact endQuiet_tableKept.mono fun h => h.engines l
  case quietLimitExpiry => exact rowTable_event rfl (endQuiet_tableKept.mono fun h => h.engines l)
  case frameGapEnd => exact rowTable_event rfl (frameGapEnd_tableKept.mono fun h => h.engines l)
  case openSlotEnd => exact rowTable_event rfl openSlotEnd_tableSame.kept
  case acyclicStart => exact rowTable_event rfl startAcyclic_tableKept
  case startEdge => exact rowTable_event rfl startEdge_tableSame.kept
  case rxReturnedTo1 => exact rowTable_event rfl rxReturned_tableSame.kept

/-- A row that is the access its own name describes, beside the traffic of the lines. -/
theorem rowTable_wellFormed (c : Instr) (s : State) (h : c.wellFormed = true) (hl : lineOf c = none) : RowTable c s := by
  cases c with
  | cycleStart => exact rowTable_otherBlock rfl startCycles_tableFree
  | cycleStop => exact rowTable_otherBlock rfl stopCycles_tableFree
  | cycleSingle => exact rowTable_otherBlock rfl singleCycle_tableFree
  | changeover | abortChangeover | copyActive => exact rowTable_otherBlock rfl (scheduleCommand_tableFree _)
  | lineEnable => exact rowTable_command rfl (lineCommand_tableKept fun _ _ _ => enableLine_tableKept)
  | lineDisable => exact rowTable_command rfl (lineCommand_tableKept fun _ _ _ => disableLine_tableKept)
  | park => exact rowTable_command rfl (stationCommand_tableKept parkStation_kept)
  | unpark => exact rowTable_command rfl (stationCommand_tableKept unparkStation_kept)
  | clearCounters => exact rowTable_command rfl (stationCommand_tableKept clearStation_kept)
  | publishImage | markImage => exact rowTable_otherBlock rfl (imageCommand_tableFree _)
  | unmarkAll => exact rowTable_otherBlock rfl fun _ _ ht => by cases ht; exact .of_blocks rfl rfl
  | claim => exact rowTable_otherBlock rfl (mailboxCommand_tableFree claimMailbox_tableFree)
  | release => exact rowTable_otherBlock rfl (mailboxCommand_tableFree releaseMailbox_tableFree)
  | flush => exact rowTable_otherBlock rfl (mailboxCommand_tableFree flushMailbox_tableFree)
  | post => exact rowTable_otherBlock rfl postRequest_tableFree
  | cancel => exact rowTable_otherBlock rfl cancelRequest_tableFree
  | pop => exact rowTable_otherBlock rfl popEvent_tableFree
  | softReset => exact rowTable_command rfl fun _ _ ht => by cases ht; exact reset_tableKept rfl rfl (by simp [isReset])
  | badCommand code =>
    have hcode : commandOfCode code = none := by simpa [Instr.wellFormed] using h
    have run : exec (.badCommand code) s = badCode code s := by rw [exec, execBadCommand, hcode]
    exact rowTable_otherBlock (run.trans rfl) fun _ _ ht => by cases ht
  | cytModeWrite | cytPrescaleWrite | cytWindowWrite | cytPeriodHighWrite =>
    exact rowTable_free rfl fun _ => by unfold settingWrite; dsimp only; split <;> exact .of_blocks rfl rfl
  | divisorLowWrite | overrunCounterWrite | strayCounterWrite => exact rowTable_free rfl fun _ => setEngine_tableSame rfl rfl rfl
  | divisorHighWrite =>
    exact rowTable_access rfl fun u => by
      dsimp only
      split
      · next fits => exact setEngine_tableKept fun ⟨_, legal⟩ => ⟨fits.2, legal⟩
      · exact TableSame.kept (.of_blocks rfl rfl)
  | lineSettingWrite l which =>
    exact rowTable_access rfl fun u => by
      split
      · next fits => exact setEngine_tableKept fun legal => legal.withSetting fits.2
      · exact TableSame.kept (.of_blocks rfl rfl)
  | irqStatusWrite => exact rowTable_free rfl fun _ => by split <;> exact .of_blocks rfl rfl
  | cytPeriodLowWrite | cytValueLowRead | cycleCountLowRead | schChangeoversLowRead | poolMissesWrite | hostStatusWrite
  | irqEnableWrite => exact rowTable_free rfl fun _ => .of_blocks rfl rfl
  | winDataRead | winPeekRead => exact rowTable_free rfl fun u => (windowRead_tableSame _ u).trans (.of_blocks rfl rfl)
  | winDataWrite v | winPeekWrite v => exact rowTable_free rfl fun u => (windowWrite_tableSame _ v u).trans (.of_blocks rfl rfl)
  | registerWrite offset v =>
    have hrow : ownRowOfWrite offset v = none := by simpa [Instr.wellFormed] using h
    have run : exec (.registerWrite offset v) s = .next (s.access (plainWrite offset v)) := by rw [exec, execRegisterWrite, hrow]
    exact rowTable_free run (plainWrite_tableSame offset v)
  | pinReset | powerUp => exact ⟨_, rfl, reset_tableKept rfl rfl (by simp [isReset])⟩
  | resetRelease => exact ⟨_, rfl, TableSame.kept (.of_blocks rfl rfl)⟩
  | tick =>
    refine rowTable_event rfl ?_
    split
    · exact (settle_tableKept s).trans (completeTick_tableSame _).kept
    · exact .refl s
  | periodEnd | syncWindowExpiry =>
    refine rowTable_event rfl ?_
    split
    · exact (settle_tableKept s).trans (ownBoundary_tableSame _).kept
    · exact .refl s
  | syncFallingEdge => exact rowTable_event rfl (syncEdge_tableSame s).kept
  | syncSeenHigh =>
    refine rowTable_event rfl (TableSame.kept ?_)
    unfold syncHigh
    split <;> exact .of_blocks rfl rfl
  | changeoverCheckEnd => exact rowTable_event rfl (endCheck_tableSame s).kept
  | copyComplete => exact rowTable_event rfl (endCopy_tableSame s).kept
  | _ => cases hl

/-- Every row of the table, through the row it spells, which resets only where the row itself does (log 16). -/
theorem rowTable (c : Instr) (s : State) : RowTable c s := by
  cases hl : lineOf c with
  | some l => exact rowTable_line hl s
  | none =>
    by_cases hw : c.wellFormed = true
    · exact rowTable_wellFormed c s hw hl
    · have spelled {c' : Instr} (he : exec c s = exec c' s) (hc : c'.wellFormed = true) (hn : lineOf c' = none)
          (hr : isReset c' → isReset c) : RowTable c s := by
        obtain ⟨t, ht, kept⟩ := rowTable_wellFormed c' s hc hn
        refine ⟨t, he.trans ht, kept.mono fun quiet => ⟨quiet.engines, fun h => quiet.noReset (hr h), ?_⟩⟩
        rintro l byte head framing rfl
        cases hn
      cases c <;> simp [Instr.wellFormed] at hw
      case badCommand code =>
        obtain ⟨c', hc⟩ := Option.ne_none_iff_exists'.mp hw
        obtain ⟨wellFormed, resets⟩ := wellFormed_ofCode hc
        exact spelled (exec_badCommand s hc) wellFormed (lineOf_ofCode hc) fun h => by rw [resets h]; simp [isReset]
      case registerWrite offset v =>
        obtain ⟨c', hc⟩ := Option.ne_none_iff_exists'.mp hw
        obtain ⟨wellFormed, resets⟩ := wellFormed_ofOffset hc
        refine spelled (exec_registerWrite s hc) wellFormed (lineOf_ofOffset hc) fun h => ?_
        obtain ⟨rfl, rfl⟩ := resets h
        simp [isReset]

/-! ## Every period

A period can complete a reply of either line, so only the ranges are said to be kept. -/

section Sample

variable {l : Line} {level : Bool}

theorem rememberSample_tableSame : TableSame s (rememberSample l level s) := by
  by_cases hs : (s.engine l).state = .off
  · rw [rememberSample_off hs]; exact .refl s
  · rw [rememberSample_seen hs]; exact setEngine_tableSame rfl rfl rfl

/-- A sample within a character: a vote, a bit, a false start, or the whole character (R3). -/
theorem sampleCharacter_tableKept (p : RxProgress) : TableKept False s (sampleCharacter l level p s) := by
  have noted (rx : Receiver) : TableSame s (s.setEngine l { s.engine l with rx := rx }) := setEngine_tableSame rfl rfl rfl
  by_cases hdecides : (p.count + 1) % 16 = 10
  · by_cases hstart : p.count + 1 = 10 ∧ majority (votesAfter level p) = true
    · rw [sampleCharacter_falseStart hstart.1 hstart.2]; exact falseStart_tableKept
    · by_cases hlast : p.count + 1 = 170
      · rw [sampleCharacter_complete hlast]; exact (completeCharacter_tableKept _).mono False.elim
      · rw [sampleCharacter_bit hdecides hstart hlast]; exact (noted _).kept
  · rw [sampleCharacter_vote hdecides]; exact (noted _).kept

theorem sampleAt_tableKept : TableKept False s (sampleAt l level s) := by
  unfold sampleAt
  refine TableKept.trans ?_ rememberSample_tableSame.kept
  split
  · exact sampleCharacter_tableKept _
  · split
    · exact startEdge_tableSame.kept
    · exact .refl s

theorem lineMoment_tableKept : TableKept False s (lineMoment l s) := by
  unfold lineMoment
  dsimp only
  split
  · split
    · exact characterSent_tableKept.mono False.elim
    · exact .refl s
  · split
    · exact windowExpiry_tableKept
    · exact .refl s
  · split
    · exact charGapExpiry_tableSame.kept
    · exact .refl s
  · split
    · exact endQuiet_tableKept.mono False.elim
    · split
      · exact endQuiet_tableKept.mono False.elim
      · exact .refl s
  · split
    · exact frameGapEnd_tableKept.mono False.elim
    · exact .refl s
  · exact .refl s
  · exact .refl s

theorem lineSample_tableKept : TableKept False s (lineSample l s) := by
  rcases Nat.lt_or_ge (s.engine l).sampleClock ((s.engine l).divisor.toNat + 1) with h | h
  · rw [lineSample_notDue h]; exact .refl s
  · rw [lineSample_due h]
    have restarted : TableSame s (s.setEngine l { s.engine l with sampleClock := 0 }) := setEngine_tableSame rfl rfl rfl
    have pin : TableSame s (s.sampled l (s.nextPin l)) := restarted.trans (.of_blocks rfl rfl)
    exact pin.kept.trans sampleAt_tableKept

theorem lineAct_tableKept : TableKept False s (lineAct l s) := by
  unfold lineAct
  refine TableKept.trans ?_ (lineSample_tableKept.trans (lineMoment_tableKept.trans lineMoment_tableKept))
  split
  · exact lineMoment_tableKept
  · exact .refl s

end Sample

/-- Each actor of a period. -/
theorem Actor.act_tableKept (a : Actor) (s : State) : TableKept False s (a.act s) := by
  unfold Actor.act
  split
  · cases a with
    | timer => exact (completeTick_tableSame s).kept
    | sync => exact (syncEdge_tableSame s).kept
    | line l => exact lineAct_tableKept
    | store => exact (storeAct_tableSame s).kept
  · exact .refl s

theorem actors_tableKept (actors : List Actor) : ∀ s, TableKept False s (actors.foldl (fun u a => a.act u) s) := by
  induction actors with
  | nil => exact .refl
  | cons a actors ih => exact fun s => (a.act_tableKept s).trans (ih _)

theorem countAll_tableSame (s : State) : TableSame s (countAll s) := by
  have timer : TableSame s (countTimer s) := by rw [countTimer_eq_later]; exact .of_blocks rfl rfl
  have counted (l : Line) (u : State) (e : Engine) (h : e.settings = (u.engine l).settings) : TableSame u (u.setEngine l e.countPeriod) :=
    setEngine_tableSame rfl rfl h
  unfold countAll
  extract_lets s1 s2
  have both : TableSame s1 s2 := (counted .a s1 _ rfl).trans (counted .b _ _ rfl)
  exact timer.trans (both.trans (.of_blocks rfl rfl))

theorem clockPeriod_tableKept (s : State) : TableKept False s (clockPeriod s) := by
  unfold clockPeriod
  split
  · exact .refl s
  · obtain ⟨n, -, hdue, -⟩ := dueActors_cases (countAll (settleMoment s))
    have counted : TableKept False s (dueActors (countAll (settleMoment s))).2 := by
      rw [hdue]
      exact (settleMoment_tableKept s).trans (TableSame.kept ((countAll_tableSame _).trans (.of_blocks rfl rfl)))
    exact counted.trans (actors_tableKept _ _)

end Steps

/-- Settles O43: a command keeps the ranges as its row does, and so does a period of the clock. -/
theorem stationsStayLegal : Obligations.StationsStayLegal := by
  unfold Obligations.StationsStayLegal
  intro s t hl ht
  cases hp : s.pending with
  | nil =>
    simp only [step, hp] at ht
    cases ht
    exact (clockPeriod_tableKept s).legal hl
  | cons c rest =>
    simp only [step, hp] at ht
    obtain ⟨t', ht', kept⟩ := rowTable c { s with pending := rest }
    obtain rfl : t' = t := Host.Outcome.next.inj (ht'.symm.trans ht)
    exact kept.legal hl

end Sys2Proof.Machine
end

section
/-! Where a send sequence changes: at a reply judged OK, in the record of the exchange's station (R86). -/

namespace Sys2Proof.Machine

section Completion

variable {s t u : State} {l : Line} {x : Exchange}

/-- At most an OK report of the exchange has reached its station's record (R87). -/
def OkReported (l : Line) (x : Exchange) (s t : State) : Prop :=
  TableSame s t ∨ ∃ p : Report, p.outcome = .ok ∧ p.kind = x.kind ∧ TableReported l x.station p s t

theorem OkReported.after (h : TableSame s t) (k : OkReported l x t u) : OkReported l x s u :=
  k.imp h.trans fun ⟨p, ok, kind, reported⟩ => ⟨p, ok, kind, reported.after h⟩

/-- The OK end of an attempt reports for the exchange under way: the request's, or else the slot's (R72). -/
theorem endAttempt_okReported (hx : (s.engine l).exchange = some x) : OkReported l x s (endAttempt l .ok s) := by
  cases ha : (s.engine l).attempt with
  | none => rw [endAttempt, ha]; exact .inl (.refl s)
  | some a =>
    rw [endAttempt_good ha (.inl rfl)]
    extract_lets e t
    have idle : TableSame s t := setEngine_tableSame rfl rfl rfl
    have request : (t.engine l).request = (s.engine l).request := by rw [State.setEngine_same]
    have slot : (t.engine l).slot = (s.engine l).slot := by rw [State.setEngine_same]
    refine OkReported.after idle ?_
    split
    · rcases completeRequest_table (s := t) (l := l) .ok (some a) with same | ⟨q, hq, reported⟩
      · exact .inl same
      · obtain rfl : q.exchange = x := Option.some.inj ((exchange_of_request (request ▸ hq)).symm.trans hx)
        exact .inr ⟨_, rfl, rfl, reported⟩
    · next unserved =>
      rcases finishSlot_table (s := t) (l := l) .ok (some a) with same | ⟨c, hc, reported⟩
      · exact .inl same
      · have served : (s.engine l).request = none := by simpa using unserved
        obtain rfl : c.exchange (s.engine l).snapshot = x := Option.some.inj ((exchange_of_slot served (slot ▸ hc)).symm.trans hx)
        exact .inr ⟨_, rfl, rfl, reported⟩

theorem startEdge_exchange (l : Line) (s : State) : ((startEdge l s).engine l).exchange = (s.engine l).exchange := by
  unfold startEdge
  dsimp only
  split
  · rfl
  · rw [State.setEngine_same]; rfl

/-- A character that completes a reply judged OK ends the attempt OK. -/
theorem completeCharacter_okReported {c : RxChar} (h : (s.engine l).CompletesOk c) (hx : (s.engine l).exchange = some x) :
    OkReported l x s (completeCharacter l c s) := by
  obtain ⟨hs, a, r, ha, hr, r', judged⟩ := h
  unfold completeCharacter
  split
  · exact .inl (.refl s)
  · next p _ =>
    rw [handleCharacter_receive p c (by rw [State.setEngine_same]; exact hs) (by rw [State.setEngine_same]; exact ha) hr, judged,
      applyJudgement, State.setEngine_same, State.setEngine_setEngine]
    have replied (e : Engine) (settings : e.settings = (s.engine l).settings) (exchange : e.exchange = some x) :
        OkReported l x s (endAttempt l .ok (s.setEngine l e)) :=
      OkReported.after (setEngine_tableSame rfl rfl settings) (endAttempt_okReported (by rw [State.setEngine_same]; exact exchange))
    exact replied _ rfl hx

/-- A send sequence that an OK report changes is the exchange's station's: toggled for a sequenced kind, 0 for RESYNC (R86). -/
theorem OkReported.changed {m : Line} {i : Fin 62} (h : OkReported l x s t) (hs : (t.station m i).s ≠ (s.station m i).s) :
    m = l ∧ stationIx x.station = some i
    ∧ (isSequenced x.kind = true ∨ (x.kind = kindResync ∧ (t.station m i).s = false))
    ∧ (t.station m i).lastOutcome = .ok ∧ (t.station m i).okCount = satInc (s.station m i).okCount := by
  rcases h with same | ⟨p, ok, kind, reported⟩
  · exact absurd (by rw [same.station]) hs
  · rcases reported.station m i with same | ⟨rfl, hi, changed⟩
    · exact absurd (by rw [same]) hs
    · rw [changed, Station.report_s] at hs
      refine ⟨rfl, hi, ?_, by rw [changed, Station.report_eq, ok], by rw [changed, Station.report_eq]; simp [ok]⟩
      rw [changed, Station.report_s, ← kind]
      by_cases sequenced : isSequenced p.kind = true
      · exact .inl sequenced
      · have resync : p.kind = kindResync := by
          by_contra other
          exact hs (Report.sequence_kept (fun _ => ⟨by simpa using sequenced, other⟩) _)
        exact .inr ⟨resync, by rw [Report.sequence_eq, if_neg fun h => sequenced h.2, if_pos ⟨ok, resync⟩]⟩

end Completion

/-- Settles O41: a row that is not quiet completes a reply judged OK, on the line of the record. -/
theorem sendSequenceChangesOnlyWithOk : Obligations.SendSequenceChangesOnlyWithOk := by
  unfold Obligations.SendSequenceChangesOnlyWithOk
  intro c s t l i legal ht noReset changed
  have completes : ∃ m byte head framing, c = .receivedCharacter m byte head framing
      ∧ (s.engine m).CompletesOk { byte := byte, head := head, framing := framing } := by
    by_contra other
    obtain ⟨t', ht', kept⟩ := rowTable c s
    obtain rfl : t' = t := Host.Outcome.next.inj (ht'.symm.trans ht)
    exact changed (kept.sequence ⟨legal, noReset, fun m byte head framing hc done => other ⟨m, byte, head, framing, hc, done⟩⟩ l i)
  obtain ⟨m, byte, head, framing, rfl, done⟩ := completes
  obtain ⟨a, ha⟩ : ∃ a, (s.engine m).attempt = some a := by
    obtain ⟨-, a, -, ha, -⟩ := done
    exact ⟨a, ha⟩
  obtain ⟨x, hx, station, kind, -⟩ := (legal m).exchange ha
  have reported : OkReported m x s t := by
    cases Host.Outcome.next.inj ht
    unfold State.event
    split
    · exact .inl (.refl s)
    · have edge : ((startEdge m s).engine m).exchange = some x := by rw [startEdge_exchange, hx]
      exact OkReported.after startEdge_tableSame (completeCharacter_okReported (startEdge_completesOk.mpr done) edge)
  obtain ⟨rfl, named, sequenced, outcome, count⟩ := reported.changed changed
  exact ⟨⟨byte, head, framing, rfl⟩, ⟨a, ha, by rw [station, named], by rw [kind]; exact sequenced⟩, outcome, count⟩

end Sys2Proof.Machine
end

section
/-! A mailbox by its state: what a legal one holds, what a publication makes of it, and what the commands of the host answer (section 6.3,
R108 to R110, R112 to R114). -/

namespace Sys2Proof.Machine

/-! ## Legal mailboxes (R108) -/

namespace Mailbox.Legal

variable {m : Mailbox}

theorem of_empty (h : m.Legal) (hs : m.state = .empty) : m.current = none ∧ m.next = none ∧ m.fresh = false := by
  unfold Mailbox.Legal at h
  rwa [hs] at h

theorem of_full (h : m.Legal) (hs : m.state = .full) : m.current.isSome = true ∧ m.next = none ∧ m.fresh = true := by
  unfold Mailbox.Legal at h
  rwa [hs] at h

theorem of_claimed (h : m.Legal) (hs : m.state = .claimed) : m.current.isSome = true ∧ m.next = none ∧ m.fresh = false := by
  unfold Mailbox.Legal at h
  rwa [hs] at h

theorem of_claimedNext (h : m.Legal) (hs : m.state = .claimedNext) :
    m.current.isSome = true ∧ m.next.isSome = true ∧ m.fresh = false := by
  unfold Mailbox.Legal at h
  rwa [hs] at h

/-- A mailbox that the host has claimed is not fresh (R112). -/
theorem fresh_claimed (h : m.Legal) (hs : m.state = .claimed ∨ m.state = .claimedNext) : m.fresh = false := by
  rcases hs with hs | hs
  · obtain ⟨-, -, fresh⟩ := h.of_claimed hs
    exact fresh
  · obtain ⟨-, -, fresh⟩ := h.of_claimedNext hs
    exact fresh

end Mailbox.Legal

/-! ## Publications (R109, R110) -/

section Publications

variable {s : State} {i : Fin 48} {m x : Mailbox} {b old : Fin 72}

theorem Mailbox.publish_empty (h : m.state = .empty) : m.publish b =
    ({ m with state := .full, current := some b, fresh := true, publishes := m.publishes + 1 }, none) := by
  simp only [Mailbox.publish, h]

theorem Mailbox.publish_full (h : m.state = .full) : m.publish b =
    ({ m with
        current := some b, fresh := true, overwrites := if m.fresh = true then satInc m.overwrites else m.overwrites
        publishes := m.publishes + 1 }, m.current) := by
  simp only [Mailbox.publish, h]

theorem Mailbox.publish_claimed (h : m.state = .claimed) : m.publish b =
    ({ m with state := .claimedNext, next := some b, publishes := m.publishes + 1 }, none) := by
  simp only [Mailbox.publish, h]

theorem Mailbox.publish_claimedNext (h : m.state = .claimedNext) : m.publish b =
    ({ m with next := some b, overwrites := satInc m.overwrites, publishes := m.publishes + 1 }, m.next) := by
  simp only [Mailbox.publish, h]

/-- A publication that displaces no buffer leaves the pool alone. -/
theorem publishInto_alone (h : s.mailboxes[i].publish b = (x, none)) : publishInto i b s = s.setMailbox i x := by
  rw [publishInto, h]
  rfl

/-- A displaced buffer joins the free list (R105). -/
theorem publishInto_displaces (h : s.mailboxes[i].publish b = (x, some old)) : publishInto i b s =
    { s.setMailbox i x with pool := { s.pool with free := s.pool.free ++ [old], episode := false } } := by
  rw [publishInto, h]
  rfl

end Publications

/-- Settles O45: each state's publication displaces a buffer or leaves the pool alone. -/
theorem publishFollowsTheMailbox : Obligations.PublishFollowsTheMailbox := by
  unfold Obligations.PublishFollowsTheMailbox
  intro s i b m
  refine ⟨fun hm => publishInto_alone (Mailbox.publish_empty hm), fun old hm hold => publishInto_displaces ?_,
    fun hm => publishInto_alone (Mailbox.publish_claimed hm), fun old hm hold => publishInto_displaces ?_, fun legal hm => ?_,
    Mailbox.Legal.fresh_claimed, fun legal hm => ?_⟩
  · rw [← hold]
    exact Mailbox.publish_full hm
  · rw [← hold]
    exact Mailbox.publish_claimedNext hm
  · obtain ⟨current, -, fresh⟩ := legal.of_full hm
    exact ⟨fresh, current⟩
  · obtain ⟨-, next, -⟩ := legal.of_claimedNext hm
    exact next

/-! ## What the commands answer (R112 to R114) -/

section Answers

variable {s : State} {i : Fin 48} {m : Mailbox} {b : Fin 72}

theorem claimMailbox_full (h : m.state = .full) :
    claimMailbox i m s = .ok (s.setMailbox i { m with state := .claimed, fresh := false }) := by
  simp only [claimMailbox, h]

theorem claimMailbox_empty (h : m.state = .empty) : claimMailbox i m s = .error .empty := by
  simp only [claimMailbox, h]

theorem claimMailbox_claimed (h : m.state = .claimed ∨ m.state = .claimedNext) : claimMailbox i m s = .error .alreadyClaimed := by
  rcases h with h | h <;> simp only [claimMailbox, h]

theorem releaseMailbox_claimed (h : m.state = .claimed) (hb : m.current = some b) :
    releaseMailbox i m s = .ok ((s.setMailbox i { m with state := .empty, current := none }).withPool
      { s.pool with free := s.pool.free ++ [b], episode := false }) := by
  simp only [releaseMailbox, h, hb]
  rfl

theorem releaseMailbox_claimedNext (h : m.state = .claimedNext) (hb : m.current = some b) :
    releaseMailbox i m s = .ok ((s.setMailbox i { m with state := .full, current := m.next, next := none, fresh := true }).withPool
      { s.pool with free := s.pool.free ++ [b], episode := false }) := by
  simp only [releaseMailbox, h, hb]
  rfl

theorem releaseMailbox_unclaimed (h : m.state = .empty ∨ m.state = .full) : releaseMailbox i m s = .error .notClaimed := by
  rcases h with h | h <;> simp only [releaseMailbox, h]

theorem flushMailbox_eq : flushMailbox i m s =
    .ok ((s.setMailbox i { m with state := .empty, current := none, next := none, fresh := false, overwrites := 0 }).withPool
      { s.pool with
        free := s.pool.free ++ (m.current.toList ++ m.next.toList)
        episode := s.pool.episode && m.current.isNone && m.next.isNone }) := by
  rw [flushMailbox, Pool.giveAll_pair]
  rfl

end Answers

/-! ## Commands of a mailbox -/

section Commands

variable {s : State} {code : Byte} {i : Fin 48} {f : Fin 48 → Mailbox → State → Except CmdStatus State}

theorem mailboxCommand_badArgument (hr : s.inReset = false) (h : 48 ≤ s.host.arg0.toNat) :
    commandAccess code (mailboxCommand f) s = s.refused code .badArgument :=
  commandAccess_error hr (by simp only [mailboxCommand, State.withHost_host, (mailboxArg_names s.host.arg0).2.mpr h])

/-- The named mailbox answers the command. -/
theorem mailboxCommand_named (h : s.host.arg0.toNat = i.val) :
    mailboxCommand f (s.withHost { s.host with data := none }) = f i s.mailboxes[i] (s.withHost { s.host with data := none }) := by
  simp only [mailboxCommand, State.withHost_host, ((mailboxArg_names s.host.arg0).1 i).mpr h, State.withHost_mailboxes]

theorem mailboxCommand_refused {answer : CmdStatus} (hr : s.inReset = false) (h : s.host.arg0.toNat = i.val)
    (hf : ∀ u, f i s.mailboxes[i] u = .error answer) : commandAccess code (mailboxCommand f) s = s.refused code answer :=
  commandAccess_error hr ((mailboxCommand_named h).trans (hf _))

/-- A taken command changes its mailbox and the pool. -/
theorem mailboxCommand_taken {x : Mailbox} {p : Pool → Pool} (hr : s.inReset = false) (h : s.host.arg0.toNat = i.val)
    (hf : ∀ u, f i s.mailboxes[i] u = .ok ((u.setMailbox i x).withPool (p u.pool))) :
    commandAccess code (mailboxCommand f) s = { s.setMailbox i x with pool := p s.pool, host := s.host.accepted code } := by
  rw [commandAccess_ok hr ((mailboxCommand_named h).trans (hf _))]
  rfl

end Commands

/-- Settles O44: what each command answers in each state, put through the named mailbox. -/
theorem mailboxCommandsFollowTheState : Obligations.MailboxCommandsFollowTheState := by
  unfold Obligations.MailboxCommandsFollowTheState
  intro s hr
  refine ⟨fun h => ?_, fun i h => ?_⟩
  · have refused {code : Byte} {f : Fin 48 → Mailbox → State → Except CmdStatus State} :=
      congrArg (Host.Outcome.next (φ := Fault) (ρ := Refusal)) (mailboxCommand_badArgument (code := code) (f := f) hr h)
    exact ⟨refused, refused, refused⟩
  · have refused {code : Byte} {f : Fin 48 → Mailbox → State → Except CmdStatus State} {answer : CmdStatus}
        (hf : ∀ u, f i s.mailboxes[i] u = .error answer) :=
      congrArg (Host.Outcome.next (φ := Fault) (ρ := Refusal)) (mailboxCommand_refused (code := code) hr h hf)
    have taken {code : Byte} {f : Fin 48 → Mailbox → State → Except CmdStatus State} {x : Mailbox} (p : Pool → Pool)
        (hf : ∀ u, f i s.mailboxes[i] u = .ok ((u.setMailbox i x).withPool (p u.pool))) :=
      congrArg (Host.Outcome.next (φ := Fault) (ρ := Refusal)) (mailboxCommand_taken (code := code) hr h hf)
    refine ⟨fun hm => ⟨?_, ?_⟩, fun hm => ⟨?_, ?_⟩, fun hm => ?_, fun b hm hb => ?_, fun b hm hb => ?_, ?_⟩
    · exact taken id fun _ => claimMailbox_full hm
    · exact refused fun _ => releaseMailbox_unclaimed (.inr hm)
    · exact refused fun _ => claimMailbox_empty hm
    · exact refused fun _ => releaseMailbox_unclaimed (.inl hm)
    · exact refused fun _ => claimMailbox_claimed hm
    · exact taken (fun p => { p with free := p.free ++ [b], episode := false }) fun _ => releaseMailbox_claimed hm hb
    · exact taken (fun p => { p with free := p.free ++ [b], episode := false }) fun _ => releaseMailbox_claimedNext hm hb
    · exact taken (fun p => { p with
        free := p.free ++ (s.mailboxes[i].current.toList ++ s.mailboxes[i].next.toList)
        episode := p.episode && s.mailboxes[i].current.isNone && s.mailboxes[i].next.isNone }) fun _ => flushMailbox_eq

end Sys2Proof.Machine
end

section
/-! The places of a buffer, counted: what each update of a state adds and takes away, and the steps that leave every buffer where it is or put
one more in its place (R100). -/

namespace Sys2Proof.Machine

/-! ## Counting places -/

/-- The buffers in a mailbox's two positions (R108). -/
def Mailbox.places (m : Mailbox) : List (Fin 72) := m.current.toList ++ m.next.toList

/-- The buffers attached to event entries (R142). -/
def attached (es : List Event) : List (Fin 72) := es.filterMap (·.buffer)

/-- The number of places that a buffer is in (R100). -/
def State.placesOf (s : State) (b : Fin 72) : Nat := s.bufferPlaces.count b

/-- The references and the fresh flag of every mailbox go with its state (R108). -/
def State.MailboxesLegal (s : State) : Prop := ∀ m : Fin 48, s.mailboxes[m].Legal

/-- Everything that has a part in where the buffers are. -/
def State.holders (s : State) : List (Fin 72) × Option (Fin 72) × Option (Fin 72) × Vector Mailbox 48 × List (Fin 72) :=
  (s.pool.free, (s.engine .a).held, (s.engine .b).held, s.mailboxes, attached s.events.entries)

section Counts

variable (s : State) (b : Fin 72)

theorem State.placesOf_eq : s.placesOf b =
    s.pool.free.count b + (s.engine .a).held.toList.count b + (s.engine .b).held.toList.count b
      + (s.mailboxes.toList.flatMap Mailbox.places).count b + (attached s.events.entries).count b := by
  unfold State.placesOf State.bufferPlaces
  rw [List.count_append, List.count_append, List.count_append, List.count_append]
  rfl

theorem State.placesOf_withPool (p : Pool) :
    (s.withPool p).placesOf b + s.pool.free.count b = s.placesOf b + p.free.count b := by
  rw [State.placesOf_eq, State.placesOf_eq]
  simp only [State.withPool_pool, State.withPool_engine, State.withPool_mailboxes, State.withPool_events]
  omega

theorem State.placesOf_withEvents (q : EventQueue) :
    (s.withEvents q).placesOf b + (attached s.events.entries).count b = s.placesOf b + (attached q.entries).count b := by
  rw [State.placesOf_eq, State.placesOf_eq]
  simp only [State.withEvents_pool, State.withEvents_engine, State.withEvents_mailboxes, State.withEvents_events]
  omega

theorem State.placesOf_setEngine (l : Line) (e : Engine) :
    (s.setEngine l e).placesOf b + (s.engine l).held.toList.count b = s.placesOf b + e.held.toList.count b := by
  rw [State.placesOf_eq, State.placesOf_eq]
  simp only [State.setEngine_pool, State.setEngine_mailboxes, State.setEngine_events]
  cases l
  · rw [State.setEngine_same, State.setEngine_other s e (by simp : Line.b ≠ .a)]
    omega
  · rw [State.setEngine_same, State.setEngine_other s e (by simp : Line.a ≠ .b)]
    omega

/-- An element of a list replaced: its own part of a count goes, and the new element's comes. -/
theorem count_flatMap_set {α β : Type} [BEq β] (f : α → List β) (x : α) (y : β) (xs : List α) (i : Nat) (hi : i < xs.length) :
    ((xs.set i x).flatMap f).count y + (f xs[i]).count y = (xs.flatMap f).count y + (f x).count y := by
  induction xs generalizing i with
  | nil => exact absurd hi (Nat.not_lt_zero i)
  | cons z zs ih =>
    cases i with
    | zero =>
      simp only [List.set_cons_zero, List.flatMap_cons, List.count_append, List.getElem_cons_zero]
      omega
    | succ i =>
      have := ih i (Nat.lt_of_succ_lt_succ hi)
      simp only [List.set_cons_succ, List.flatMap_cons, List.count_append, List.getElem_cons_succ]
      omega

theorem State.placesOf_setMailbox (i : Fin 48) (m : Mailbox) :
    (s.setMailbox i m).placesOf b + s.mailboxes[i].places.count b = s.placesOf b + m.places.count b := by
  have changed := count_flatMap_set Mailbox.places m b s.mailboxes.toList i.val (by simp)
  have written : (s.setMailbox i m).mailboxes.toList = s.mailboxes.toList.set i.val m :=
    Vector.toList_set i.isLt
  rw [State.placesOf_eq, State.placesOf_eq, written]
  simp only [State.setMailbox_pool, State.setMailbox_engine, State.setMailbox_events]
  simp only [Vector.getElem_toList] at changed
  simp only [Fin.getElem_fin]
  omega

end Counts

/-! ## Steps by what they do to the places -/

/-- The step puts `x`, if there is one, in one more place, and leaves every other buffer where it is; the mailboxes stay legal. -/
structure BuffersGain (x : Option (Fin 72)) (s t : State) : Prop where
  places : s.MailboxesLegal → ∀ b, t.placesOf b = s.placesOf b + x.toList.count b
  mailboxes : s.MailboxesLegal → t.MailboxesLegal

/-- The step leaves every buffer in as many places as it was in; the mailboxes stay legal. -/
abbrev BuffersKept (s t : State) : Prop := BuffersGain none s t

section Relations

variable {s t u : State} {l : Line} {x : Option (Fin 72)} {e : Engine}

theorem BuffersGain.trans (h : BuffersKept s t) (k : BuffersGain x t u) : BuffersGain x s u where
  places legal b := by
    rw [k.places (h.mailboxes legal), h.places legal]
    rfl
  mailboxes legal := k.mailboxes (h.mailboxes legal)

/-- A gain, and then a step that keeps the places. -/
theorem BuffersGain.keeps (h : BuffersGain x s t) (k : BuffersKept t u) : BuffersGain x s u where
  places legal b := by
    rw [k.places (h.mailboxes legal), h.places legal]
    rfl
  mailboxes legal := k.mailboxes (h.mailboxes legal)

theorem BuffersGain.of_same (h : t.holders = s.holders) : BuffersKept s t := by
  simp only [State.holders, Prod.mk.injEq] at h
  obtain ⟨hfree, ha, hb, hmailboxes, hevents⟩ := h
  refine ⟨fun _ b => ?_, fun legal m => ?_⟩
  · rw [State.placesOf_eq, State.placesOf_eq, hfree, ha, hb, hmailboxes, hevents]
    rfl
  · rw [hmailboxes]
    exact legal m

theorem BuffersGain.refl (s : State) : BuffersKept s s := .of_same rfl

/-- An engine that holds the buffer it held, beside updates that have no part in the places. -/
theorem setEngine_buffersKept (ht : t.holders = s.holders) (he : e.held = (s.engine l).held) : BuffersKept s (t.setEngine l e) := by
  have before : BuffersKept s t := .of_same ht
  have held : (t.engine l).held = (s.engine l).held := by
    simp only [State.holders, Prod.mk.injEq] at ht
    obtain ⟨-, ha, hb, -⟩ := ht
    cases l
    · exact ha
    · exact hb
  refine before.trans ⟨fun _ b => ?_, id⟩
  have := t.placesOf_setEngine b l e
  rw [he, ← held] at this
  exact Nat.add_right_cancel this

/-- The buffer that has found its place leaves the attempt context. -/
theorem BuffersGain.dropped (h : BuffersGain x s t) (ht : (t.engine l).held = x) (he : e.held = none) :
    BuffersKept s (t.setEngine l e) where
  places legal b := by
    have gained := h.places legal b
    have dropped := t.placesOf_setEngine b l e
    rw [ht, he] at dropped
    omega
  mailboxes := h.mailboxes

end Relations

end Sys2Proof.Machine
end

section
/-! Returns, takes, publications and appends: how each moves buffers between the free list, the attempt contexts, the mailboxes and the event
entries (R100, R103, R105, R109, R110, R145). -/

namespace Sys2Proof.Machine

section Shared

variable {s t : State} {l : Line} {x : Option (Fin 72)}

/-! ## The free list and the mailboxes -/

/-- A return finds the buffer a place on the free list (R105). -/
theorem giveBuffer_gain (s : State) (x : Option (Fin 72)) : BuffersGain x s (s.giveBuffer x) where
  places _ b := by
    have returned := s.placesOf_withPool b { s.pool with free := s.pool.free ++ x.toList, episode := s.pool.episode && x.isNone }
    rw [List.count_append] at returned
    rw [State.giveBuffer_eq]
    omega
  mailboxes := id

theorem setMailbox_mailboxesLegal {i : Fin 48} {m : Mailbox} (h : s.mailboxes[i].Legal → m.Legal) (legal : s.MailboxesLegal) :
    (s.setMailbox i m).MailboxesLegal := fun j => by
  by_cases hj : j = i
  · subst hj
    rw [State.setMailbox, State.withMailboxes_mailboxes, setAt_same]
    exact h (legal j)
  · rw [State.setMailbox, State.withMailboxes_mailboxes, setAt_other _ _ hj]
    exact legal j

/-- A mailbox that gives up some of its buffers to the free list, and takes `x`, if there is one. -/
theorem setMailbox_gain {i : Fin 48} {m : Mailbox} {p : Pool} (returned : List (Fin 72)) (hp : p.free = s.pool.free ++ returned)
    (hm : s.mailboxes[i].Legal → m.Legal)
    (moved : s.mailboxes[i].Legal → (m.places ++ returned).Perm (s.mailboxes[i].places ++ x.toList)) :
    BuffersGain x s ((s.setMailbox i m).withPool p) where
  places legal b := by
    have pool := (s.setMailbox i m).placesOf_withPool b p
    have mailbox := s.placesOf_setMailbox b i m
    have same := (moved (legal i)).count_eq b
    rw [hp, State.setMailbox_pool, List.count_append] at pool
    rw [List.count_append, List.count_append] at same
    omega
  mailboxes := setMailbox_mailboxesLegal hm

/-- A publication keeps the mailbox legal (R109, R110). -/
theorem Mailbox.Legal.publish {m : Mailbox} (h : m.Legal) (b : Fin 72) : (m.publish b).1.Legal := by
  cases hs : m.state with
  | empty =>
    obtain ⟨-, next, -⟩ := h.of_empty hs
    rw [Mailbox.publish_empty hs]
    exact ⟨rfl, next, rfl⟩
  | full =>
    obtain ⟨-, next, -⟩ := h.of_full hs
    rw [Mailbox.publish_full hs]
    unfold Mailbox.Legal
    simp [hs, next]
  | claimed =>
    obtain ⟨current, -, fresh⟩ := h.of_claimed hs
    rw [Mailbox.publish_claimed hs]
    exact ⟨current, rfl, fresh⟩
  | claimedNext =>
    obtain ⟨current, -, fresh⟩ := h.of_claimedNext hs
    rw [Mailbox.publish_claimedNext hs]
    unfold Mailbox.Legal
    simp [hs, current, fresh]

/-- A legal mailbox gives the published buffer a place and the displaced one back (R100). -/
theorem Mailbox.Legal.publish_places {m : Mailbox} (h : m.Legal) (b : Fin 72) :
    ((m.publish b).1.places ++ (m.publish b).2.toList).Perm (m.places ++ [b]) :=
  m.publish_places b (fun hs => (h.of_empty hs).1) fun hs => (h.of_claimed hs).2.1

theorem publishInto_gain (i : Fin 48) (b : Fin 72) : BuffersGain (some b) s (publishInto i b s) := by
  rw [publishInto_eq]
  exact setMailbox_gain _ rfl (fun legal => legal.publish b) fun legal => legal.publish_places b

/-! ## Event entries -/

/-- None of the events has a buffer attached. -/
def Bufferless (es : List Event) : Prop := ∀ e ∈ es, e.buffer = none

theorem attached_bufferless {es : List Event} (h : Bufferless es) : attached es = [] :=
  List.filterMap_eq_nil_iff.mpr h

/-- A queue with entries added that have no buffers. -/
theorem withEvents_buffersKept {q : EventQueue} (adds : s.events.entries <+: q.entries)
    (h : Bufferless (q.entries.drop s.events.entries.length)) : BuffersKept s (s.withEvents q) := by
  obtain ⟨added, hadded⟩ := adds
  rw [← hadded, List.drop_left] at h
  have same : attached q.entries = attached s.events.entries := by
    rw [← hadded, attached, List.filterMap_append]
    exact (congrArg _ (attached_bufferless h)).trans (List.append_nil _)
  refine .of_same ?_
  unfold State.holders
  rw [State.withEvents_events, same]
  rfl

/-- Unreserved appends of events without buffers: whether they find room is no matter (R146). -/
theorem appendPlain_buffersKept {es : List Event} (h : Bufferless es) : BuffersKept s (s.appendAll (es.map .plain)) := by
  obtain ⟨adds, -, added⟩ := foldl_append_adds es s.events
  rw [State.appendAll, foldl_apply_plain]
  exact withEvents_buffersKept adds fun e he => h e (added e he)

theorem appendEvent_buffersKept {e : Event} (h : e.buffer = none) : BuffersKept s (s.appendEvent e) := by
  have plain : Bufferless [e] := fun f hf => by rw [List.mem_singleton.mp hf, h]
  exact appendPlain_buffersKept plain

/-- A reserved append always lands, with the buffer attached to it (R145). -/
theorem appendReserved_gain (d : Event) : BuffersGain d.buffer s (s.appendAll [.reserved l d]) where
  places _ b := by
    have landed : (s.appendAll [.reserved l d]).placesOf b + (attached s.events.entries).count b =
        s.placesOf b + (attached (s.events.appendReserved l d).entries).count b := s.placesOf_withEvents b _
    have buffers : attached (s.events.appendReserved l d).entries = attached s.events.entries ++ d.buffer.toList := by
      rw [EventQueue.appendReserved, attached, List.filterMap_append]
      cases hd : d.buffer <;> simp [attached, hd]
    rw [buffers, List.count_append] at landed
    omega
  mailboxes := id

/-- A completion's appends land its event, at any place among its station's (R136). -/
theorem completed_gain (d : Event) {es : List Event} (h : Bufferless es) : BuffersGain d.buffer s (completed l d es s) := by
  obtain ⟨front, back, choices, hcut, -, hplace⟩ := anyPlace_spec s (Append.reserved l d) (es.map Append.plain)
  obtain ⟨before, after, hes, rfl, rfl⟩ := List.map_eq_append_iff.mp hcut
  have plain : Bufferless before ∧ Bufferless after := by
    subst hes
    exact ⟨fun e he => h e (List.mem_append_left _ he), fun e he => h e (List.mem_append_right _ he)⟩
  have inTurn : completed l d es s =
      (((s.withChoices choices).appendAll (before.map .plain)).appendAll [.reserved l d]).appendAll (after.map .plain) := by
    rw [completed, hplace, State.appendAll, List.foldl_append, List.foldl_cons]
    rfl
  have drawn : BuffersKept s (s.withChoices choices) := .of_same rfl
  rw [inTurn]
  exact (drawn.trans (appendPlain_buffersKept plain.1)).trans ((appendReserved_gain d).keeps (appendPlain_buffersKept plain.2))

/-! ## Takes (R103, R104) -/

/-- A take by a line that holds no buffer moves the head of the free list to its attempt context, or misses. -/
theorem takeBuffer_buffersKept (w : TakeFor) (hh : (s.engine l).held = none) : BuffersKept s (takeBuffer l w s) := by
  cases hf : s.pool.free with
  | nil =>
    have missed : BuffersKept s (s.withPool { s.pool with misses := satInc s.pool.misses, episode := true }) := .of_same rfl
    rw [takeBuffer_miss l w hf]
    refine missed.trans ?_
    split
    · exact .of_same rfl
    · exact appendEvent_buffersKept rfl
  | cons head rest =>
    rw [takeBuffer_free l w hf]
    refine ⟨fun _ b => ?_, id⟩
    generalize hp : ({ s.pool with free := rest } : Pool) = p
    generalize he : ({ s.engine l with held := some head } : Engine) = e
    have taken := (s.withPool p).placesOf_setEngine b l e
    have left := s.placesOf_withPool b p
    have rest' : p.free = rest := by rw [← hp]
    have held : e.held = some head := by rw [← he]
    rw [State.withPool_engine, hh, held, Option.toList_none, Option.toList_some, List.count_nil] at taken
    rw [hf, rest', ← List.singleton_append, List.count_append] at left
    rw [Option.toList_none, List.count_nil]
    omega

end Shared

end Sys2Proof.Machine
end

section
/-! What a line's operations do with its buffer: the end of a slot or of a request finds it another place, a slot or a request that begins takes
one, and no other operation of the line moves a buffer (R66, R74, R75, R80, R135, R136). -/

namespace Sys2Proof.Machine

/-! ## Ends (R74, R75, R136) -/

section Ends

variable {s t : State} {l : Line}

theorem beginAttempt_buffersKept : BuffersKept s (beginAttempt l s) := by
  have sends (e : Engine) (x : Exchange) (seqBit : Bool) : (e.transmit x seqBit).held = e.held := by
    unfold Engine.transmit Engine.countAttempt
    cases e.request <;> rfl
  unfold beginAttempt
  split
  · exact .refl s
  · exact setEngine_buffersKept rfl (sends ..)

theorem leaveSlot_buffersKept (o : Outcome) : BuffersKept s (leaveSlot l o s) := by
  obtain ⟨results, slot, snapshot, only⟩ := leaveSlot_only l o s
  rw [only]
  exact setEngine_buffersKept rfl rfl

theorem returnHeld_buffersKept : BuffersKept s (returnHeld l s) := (giveBuffer_gain s _).dropped rfl rfl

theorem writeHeader_buffersKept (b : Fin 72) (a : Attempt) (label : Byte) : BuffersKept s (writeHeader l b a label s) := by
  unfold writeHeader
  split <;> exact .of_same rfl

theorem publishHeld_buffersKept (c : Slot) (a : Attempt) : BuffersKept s (publishHeld l c a s) := by
  unfold publishHeld
  split
  · next b m hb _ =>
    have published : BuffersGain (some b) s (publishInto m b (writeHeader l b a c.entry.label s)) :=
      (writeHeader_buffersKept b a c.entry.label).trans (publishInto_gain m b)
    exact published.dropped ((congrArg Engine.held (writeHeader_engine ..)).trans hb) rfl
  · exact returnHeld_buffersKept

theorem stationEvents_bufferless (l : Line) (address : Byte) (mask : EventMask) (old new : Station) (p : Report) :
    Bufferless (stationEvents l address mask old new p) := by
  intro e he
  unfold stationEvents at he
  rcases List.mem_append.mp he with he | he
  · split at he
    · rw [List.mem_singleton.mp he]
    · cases he
  · split at he
    · rw [List.mem_singleton.mp he]
    · split at he
      · rw [List.mem_singleton.mp he]
      · cases he

theorem applyReport_bufferless (l : Line) (address : Byte) (p : Report) (s : State) : Bufferless (applyReport l address p s).2 := by
  unfold applyReport
  split
  · exact nofun
  · exact stationEvents_bufferless _ _ _ _ _ _

theorem applyReport_buffersKept (address : Byte) (p : Report) : BuffersKept s (applyReport l address p s).1 := by
  unfold applyReport
  split <;> exact .of_same rfl

theorem reportSlot_buffersKept (address : Byte) (p : Report) : BuffersKept s (reportSlot l address p s) :=
  (applyReport_buffersKept address p).trans (appendPlain_buffersKept (applyReport_bufferless _ _ _ _))

theorem reportAttempt_buffersKept (address : Byte) (o : Outcome) : BuffersKept s (reportAttempt l address o s) := by
  unfold reportAttempt
  split <;> exact .of_same rfl

/-- The end of a slot publishes its buffer or returns it (R74, R75). -/
theorem finishSlot_buffersKept (o : Outcome) (a : Option Attempt) : BuffersKept s (finishSlot l o a s) := by
  unfold finishSlot
  split
  · exact .refl s
  · extract_lets s1 s2
    have settled : BuffersKept s s1 := by
      unfold s1
      split
      · exact publishHeld_buffersKept ..
      · exact returnHeld_buffersKept
    have reported : BuffersKept s1 s2 := by
      unfold s2
      split
      · exact .refl s1
      · exact reportSlot_buffersKept ..
    exact settled.trans (reported.trans (leaveSlot_buffersKept o))

/-- A buffer goes with a completion only when an attempt has filled it; it is the held one (R136). -/
theorem keptBuffer_held {e : Engine} {o : Outcome} {a : Option Attempt} {b : Fin 72} {length : Byte}
    (h : keptBuffer e o a = some (b, length)) : e.held = some b ∧ a.isSome = true := by
  unfold keptBuffer at h
  split at h
  · split at h
    · next b' _ _ held kept =>
      obtain ⟨x, ha, -⟩ := Option.bind_eq_some_iff.mp kept
      simp only [Option.some.injEq, Prod.mk.injEq] at h
      exact ⟨held.trans (congrArg some h.1), by rw [ha]; rfl⟩
    · cases h
  · cases h

/-- The buffer of a request that is done is attached to the event of its completion, or is back on the free list (R136). -/
theorem settled_completed_gain {q : Request} {o : Outcome} {a : Option Attempt} {es : List Event} (h : Bufferless es)
    (k : BuffersKept (settledBuffer l q o a s) t) : BuffersGain (s.engine l).held s (completed l (completion s l q o a) es t) := by
  have landed := completed_gain (s := t) (l := l) (completion s l q o a) h
  have buffer : (completion s l q o a).buffer = (keptBuffer (s.engine l) o a).map (·.1) := rfl
  rw [buffer] at landed
  cases hk : keptBuffer (s.engine l) o a with
  | none =>
    have returned : settledBuffer l q o a s = s.giveBuffer (s.engine l).held := by simp only [settledBuffer, hk]
    rw [returned] at k
    rw [hk] at landed
    exact ((giveBuffer_gain s _).keeps k).keeps landed
  | some kept =>
    obtain ⟨b, length⟩ := kept
    obtain ⟨held, filled⟩ := keptBuffer_held hk
    obtain ⟨x, rfl⟩ := Option.isSome_iff_exists.mp filled
    have written : settledBuffer l q o (some x) s = writeHeader l b x q.desc.tag s := by simp only [settledBuffer, hk]
    rw [written] at k
    rw [hk] at landed
    rw [held]
    exact ((writeHeader_buffersKept b x q.desc.tag).trans k).trans landed

/-- The completion of a request attaches its buffer to the event or returns it (R136). -/
theorem completeRequest_buffersKept (o : Outcome) (a : Option Attempt) : BuffersKept s (completeRequest l o a s) := by
  cases hq : (s.engine l).request with
  | none =>
    rw [completeRequest, hq]
    exact .refl s
  | some q =>
    have same : (settledBuffer l q o a s).engine l = s.engine l := by
      unfold settledBuffer
      split
      · exact writeHeader_engine ..
      · rfl
    have left (es : List Event) (v : State) (plain : Bufferless es) (reported : BuffersKept (settledBuffer l q o a s) v)
        (engine : v.engine l = (settledBuffer l q o a s).engine l) :
        BuffersKept s (leaveRequest l (completed l (completion s l q o a) es v)) := by
      refine (settled_completed_gain plain reported).dropped ?_ rfl
      exact congrArg Engine.held ((anyPlace_engine ..).trans (engine.trans same))
    by_cases silent : o = .notReady ∨ o = .aborted
    · have run : completeRequest l o a s = leaveRequest l (completed l (completion s l q o a) [] (settledBuffer l q o a s)) := by
        simp only [completeRequest, hq, if_pos silent]
        rfl
      rw [run]
      exact left [] _ nofun (.refl _) rfl
    · rw [completeRequest_reports hq silent]
      exact left _ _ (applyReport_bufferless _ _ _ _) (applyReport_buffersKept ..) (applyReport_engine ..)

theorem endAttempt_buffersKept (o : Outcome) : BuffersKept s (endAttempt l o s) := by
  unfold endAttempt
  split
  · exact .refl s
  · extract_lets s1 ended e s2
    have counted : BuffersKept s s1 := by
      unfold s1
      split
      · exact .refl s
      · exact reportAttempt_buffersKept ..
    have stopped : BuffersKept s s2 := counted.trans (setEngine_buffersKept rfl rfl)
    split
    · split
      · exact stopped.trans (completeRequest_buffersKept ..)
      · exact stopped.trans (finishSlot_buffersKept ..)
    · exact stopped

/-- What a line tears down finds its place, and the line holds no buffer any more (R80). -/
theorem tearDown_buffersKept : BuffersKept s (tearDown l s) :=
  (completeRequest_buffersKept .aborted none).trans (returnHeld_buffersKept.trans (leaveSlot_buffersKept .aborted))

theorem tearDown_held (l : Line) (s : State) : ((tearDown l s).engine l).held = none := by
  obtain ⟨results, slot, snapshot, only⟩ := leaveSlot_only l .aborted (returnHeld l (completeRequest l .aborted none s))
  rw [tearDown, only, State.setEngine_same, returnHeld_engine]

end Ends

/-! ## The walk (R61 to R67, R72, R73) -/

section Walk

variable {s : State} {l : Line}

theorem readNext_buffersKept : BuffersKept s (readNext l s) := by
  obtain ⟨x, only, -⟩ := readNext_only l s
  rw [only]
  exact setEngine_buffersKept rfl rfl

/-- A slot's take is the first of its line since the last end (R66). -/
theorem sendSlot_buffersKept (c : Slot) (hh : (s.engine l).held = none) : BuffersKept s (sendSlot l c s) := by
  have snapshot : BuffersKept s (takeSnapshot l c s) := by
    unfold takeSnapshot
    split
    · exact setEngine_buffersKept rfl rfl
    · exact .refl s
  have held : ((takeSnapshot l c s).engine l).held = none := by
    obtain ⟨n, only⟩ := takeSnapshot_engine l c s
    rw [only]
    exact hh
  have taken : BuffersKept (takeSnapshot l c s) (takeForSlot l c (takeSnapshot l c s)) := by
    unfold takeForSlot
    split
    · exact takeBuffer_buffersKept _ held
    · exact .refl _
  exact snapshot.trans (taken.trans beginAttempt_buffersKept)

theorem startStation_buffersKept (c : Slot) (hh : (s.engine l).held = none) : BuffersKept s (startStation l c s) := by
  unfold startStation
  split
  · exact sendSlot_buffersKept c hh
  · extract_lets read s1 c' e
    have counted : BuffersKept s s1 := .of_same rfl
    split
    · exact counted.trans (leaveSlot_buffersKept _)
    · exact counted.trans (sendSlot_buffersKept c hh)
    · have substituted : BuffersKept s1 (s1.setEngine l { s1.engine l with slot := some c' }) := setEngine_buffersKept rfl rfl
      exact counted.trans (substituted.trans (sendSlot_buffersKept c' (by rw [State.setEngine_same]; exact hh)))

theorem beginSlot_buffersKept (n : Notice) (r : ReadEntry) (hh : (s.engine l).held = none) : BuffersKept s (beginSlot l n r s) := by
  have begun : BuffersKept s (entered s l n r) := setEngine_buffersKept rfl rfl
  have held : ((entered s l n r).engine l).held = none := by
    rw [entered_engine]
    exact hh
  rw [beginSlot_eq]
  split
  · exact begun.trans (leaveSlot_buffersKept _)
  · split
    · exact begun
    · split
      · exact begun.trans (sendSlot_buffersKept _ held)
      · exact begun.trans (startStation_buffersKept _ held)

/-- A slot begins only in an engine that rests, which holds no buffer. -/
theorem walkOn_buffersKept (k : Nat) : ∀ s : State, (s.engine l).Legal → BuffersKept s (walkOn l k s) := by
  induction k with
  | zero => exact fun s _ => .refl s
  | succ k ih =>
    intro s h
    have read := readNext_legal h
    unfold walkOn
    dsimp only
    split
    · next n r _ hr =>
      split
      · obtain ⟨hw, -⟩ := read.of_next (by simp [hr])
        have rests := read.rests (.inl hw)
        exact readNext_buffersKept.trans
          ((beginSlot_buffersKept n r rests.held).trans (ih _ (beginSlot_legal n r rests)))
      · exact readNext_buffersKept
    · exact readNext_buffersKept

theorem slotBegin_buffersKept (h : (s.engine l).Legal) : BuffersKept s (slotBegin l s) := by
  unfold slotBegin
  dsimp only
  split
  · exact walkOn_buffersKept _ s h
  · exact .refl s

theorem openSlotEnd_buffersKept : BuffersKept s (openSlotEnd l s) := by
  unfold openSlotEnd
  split
  · exact (leaveSlot_buffersKept _).trans readNext_buffersKept
  · exact .refl s

theorem afterGap_buffersKept (h : (s.engine l).Rests) : BuffersKept s (afterGap l s) := by
  unfold afterGap
  split
  · next c hc =>
    split
    · have rests := leaveSlot_rests .ok h.toIdles (h.legal.next_none (by simp [hc])) (by simp [hc])
      exact (leaveSlot_buffersKept _).trans (slotBegin_buffersKept rests.legal)
    · exact setEngine_buffersKept rfl rfl
  · exact slotBegin_buffersKept h.legal

/-- The retry decision of an engine back in WAIT: an end leaves it at rest, where the next slot takes its own buffer (R73). -/
theorem retryDecision_buffersKept (o : Outcome) (h : (s.engine l).Serves) (hs : (s.engine l).state = .wait)
    (htx : (s.engine l).tx = none) (ha : (s.engine l).attempt = none) (hf : (s.engine l).failed = none) :
    BuffersKept s (retryDecision l o s) := by
  obtain ⟨c, hc⟩ := Option.isSome_iff_exists.mp h.slot
  unfold retryDecision
  split
  · exact beginAttempt_buffersKept
  · split
    · next q hq =>
      refine (completeRequest_buffersKept o none).trans (afterGap_buffersKept ?_)
      rw [completeRequest_engine o none hq]
      exact h.released (by simp [hq]) (.inl hs) htx ha hf _
    · next hq =>
      refine (finishSlot_buffersKept o none).trans (slotBegin_buffersKept (Engine.Rests.legal ?_))
      rw [finishSlot_engine o none hc]
      exact h.finished hq (.inl hs) htx ha hf

theorem frameGapEnd_buffersKept (h : (s.engine l).Legal) : BuffersKept s (frameGapEnd l s) := by
  unfold frameGapEnd
  dsimp only
  split
  · next hs =>
    have back : BuffersKept s (s.setEngine l { s.engine l with state := .wait, failed := none }) := setEngine_buffersKept rfl rfl
    refine back.trans ?_
    split
    · next o hf =>
      have serves := h.serves (.inr (by simp [hf]))
      have still : (s.engine l).attempt = none := by simpa [Engine.inFlight, hs] using h.attempt_iff
      apply retryDecision_buffersKept <;> rw [State.setEngine_same]
      · exact serves.of_eq rfl rfl rfl rfl rfl rfl
      · exact h.tx_none (by simp [hs])
      · exact still
    · next hf =>
      have rests := h.rests (.inr ⟨hs, hf⟩)
      refine afterGap_buffersKept ?_
      rw [State.setEngine_same]
      refine ⟨⟨rests.enabled, .inl rfl, rests.tx, rests.attempt, rests.held, rests.request, rfl⟩, rests.slot, rests.snapshot, fun hn => ?_⟩
      exact absurd (rests.next hn).1 (by simp [hs])
  · exact .refl s

/-- A request starts in an engine that rests; it takes a buffer, or completes without one (R134, R135). -/
theorem startAcyclic_buffersKept (h : (s.engine l).Legal) : BuffersKept s (startAcyclic l s) := by
  unfold startAcyclic
  split
  · exact .refl s
  · next d c hd =>
    obtain ⟨rests, -⟩ := startable_rests h hd
    have started : BuffersKept s (startHead l d c s) := setEngine_buffersKept rfl rfl
    have held : ((startHead l d c s).engine l).held = none := by
      rw [startHead, State.setEngine_same]
      exact rests.held
    have taken (q : Request) : BuffersKept (startHead l d c s) (takeForRequest l q (startHead l d c s)) := by
      unfold takeForRequest
      split
      · exact .refl _
      · exact takeBuffer_buffersKept _ held
    dsimp only
    split
    · exact started.trans ((taken _).trans beginAttempt_buffersKept)
    · exact started.trans (completeRequest_buffersKept .notReady none)

theorem takeNotice_buffersKept (n : Option Notice) : BuffersKept s (takeNotice l n s) := by
  have squeezed : BuffersKept s (squeezeUnbegun l s) := by
    unfold squeezeUnbegun
    split <;> exact .of_same rfl
  unfold takeNotice
  split
  · exact .refl s
  · dsimp only
    have noticed (u : State) : BuffersKept u (u.setEngine l ((u.engine l).takeNotice n)) := setEngine_buffersKept rfl rfl
    refine (squeezed.trans (noticed _)).trans (BuffersGain.trans ?_ readNext_buffersKept)
    split
    · exact leaveSlot_buffersKept _
    · exact .refl _

theorem enableLine_buffersKept {t : State} (h : (s.engine l).Legal) (ht : enableLine l s = .ok t) : BuffersKept s t := by
  unfold enableLine at ht
  split at ht
  · next hs =>
    obtain rfl := Except.ok.inj ht
    obtain ⟨⟨-, -, -, -, held, -⟩, -⟩ := h.of_off hs
    exact setEngine_buffersKept rfl held.symm
  · cases ht

theorem disableLine_buffersKept {t : State} (ht : disableLine l s = .ok t) : BuffersKept s t := by
  have emptied {e : Engine} (he : e.held = none) : BuffersKept s ((tearDown l s).setEngine l e) :=
    tearDown_buffersKept.trans (setEngine_buffersKept rfl (he.trans (tearDown_held l s).symm))
  unfold disableLine at ht
  dsimp only at ht
  split at ht
  · cases ht
  · split at ht
    · obtain rfl := Except.ok.inj ht
      exact .refl s
    · split at ht
      · obtain rfl := Except.ok.inj ht
        exact emptied rfl
      · obtain rfl := Except.ok.inj ht
        exact emptied rfl

end Walk

/-! ## Traffic (R8 to R13, R68 to R72) -/

section Traffic

variable {s : State} {l : Line}

theorem characterSent_buffersKept (h : (s.engine l).Legal) : BuffersKept s (characterSent l s) := by
  unfold characterSent
  dsimp only
  split
  · exact .refl s
  · split
    · next disabling =>
      obtain ⟨⟨-, -, -, -, held, -⟩, -⟩ := h.of_disabling disabling
      exact setEngine_buffersKept rfl held.symm
    · split
      · exact .refl s
      · split
        · exact endAttempt_buffersKept _
        · split
          · exact setEngine_buffersKept rfl rfl
          · unfold frameSent
            split
            · exact endAttempt_buffersKept _
            · exact setEngine_buffersKept rfl rfl

theorem startEdge_buffersKept : BuffersKept s (startEdge l s) := by
  unfold startEdge
  dsimp only
  split
  · exact .refl s
  · exact setEngine_buffersKept rfl rfl

theorem rxReturned_buffersKept : BuffersKept s (rxReturned l s) := by
  unfold rxReturned
  dsimp only
  split
  · exact .refl s
  · exact setEngine_buffersKept rfl rfl

theorem falseStart_buffersKept : BuffersKept s (falseStart l s) := by
  unfold falseStart
  dsimp only
  split
  · exact .refl s
  · have dropped (rx : Receiver) : BuffersKept s (s.setEngine l { s.engine l with rx := rx }) := setEngine_buffersKept rfl rfl
    split
    · split
      · exact (dropped _).trans (endAttempt_buffersKept _)
      · exact dropped _
    · exact dropped _

theorem windowExpiry_buffersKept : BuffersKept s (windowExpiry l s) := by
  unfold windowExpiry
  dsimp only
  split
  · split
    · exact setEngine_buffersKept rfl rfl
    · exact endAttempt_buffersKept _
  · exact .refl s

theorem charGapExpiry_buffersKept : BuffersKept s (charGapExpiry l s) := by
  unfold charGapExpiry
  dsimp only
  split
  · split
    · exact .refl s
    · exact setEngine_buffersKept rfl rfl
  · exact .refl s

theorem endQuiet_buffersKept : BuffersKept s (endQuiet l s) := by
  unfold endQuiet
  dsimp only
  split
  · exact endAttempt_buffersKept _
  · exact .refl s

theorem applyJudgement_buffersKept (a : Attempt) (j : Judgement) : BuffersKept s (applyJudgement l a j s) := by
  have stored (u : State) (store : Option (Nat × Byte)) : BuffersKept u (storePayload l store u) := by
    unfold storePayload
    split <;> exact .of_same rfl
  unfold applyJudgement
  split
  · refine BuffersGain.trans ?_ (stored _ _)
    exact setEngine_buffersKept rfl rfl
  · exact setEngine_buffersKept rfl rfl
  · refine BuffersGain.trans ?_ (endAttempt_buffersKept _)
    exact setEngine_buffersKept rfl rfl

theorem handleCharacter_buffersKept (p : RxProgress) (c : RxChar) : BuffersKept s (handleCharacter l p c s) := by
  have stray : BuffersKept s (countStray l s) := setEngine_buffersKept rfl rfl
  unfold handleCharacter
  split
  · exact stray
  · exact stray
  · unfold echoCharacter
    split
    · exact setEngine_buffersKept rfl rfl
    · exact .refl s
  · unfold awaitCharacter
    split
    · unfold headFound
      extract_lets t
      have arrived : BuffersKept s t := setEngine_buffersKept rfl rfl
      split
      · exact arrived.trans (applyJudgement_buffersKept ..)
      · exact arrived
    · split
      · exact stray.trans (endAttempt_buffersKept _)
      · exact stray
  · unfold replyCharacter
    split
    · exact applyJudgement_buffersKept ..
    · exact .refl s
  · exact .refl s

theorem completeCharacter_buffersKept (c : RxChar) : BuffersKept s (completeCharacter l c s) := by
  unfold completeCharacter
  split
  · exact .refl s
  · have received (rx : Receiver) : BuffersKept s (s.setEngine l { s.engine l with rx := rx, idle := 0 }) :=
      setEngine_buffersKept rfl rfl
    exact (received _).trans (handleCharacter_buffersKept ..)

end Traffic

end Sys2Proof.Machine
end

section
/-! What boundaries, the blocks beside the lines and the commands of the host do with the buffers: RELEASE, FLUSH and POP return them, and no
other of them moves one (R100, R113, R114, R148). -/

namespace Sys2Proof.Machine

section Blocks

variable {s : State}

/-! ## Boundaries (R22, R23, R52) -/

theorem overrunEvents_bufferless (l : Line) (code : Byte) (e : Engine) : Bufferless (overrunEvents l code e) := by
  intro x hx
  unfold overrunEvents at hx
  split at hx
  · split at hx
    · rw [List.mem_singleton.mp hx]
    · cases hx
  · cases hx

theorem swapEvents_bufferless (sch : Schedule) (cycle : Half) : Bufferless (sch.swapEvents cycle) := by
  intro x hx
  unfold Schedule.swapEvents at hx
  split at hx
  · rw [List.mem_singleton.mp hx]
  · cases hx

theorem syncEvent_bufferless (kind : Option EventKind) (cycle : Half) : Bufferless (syncEvent kind cycle) := by
  intro x hx
  unfold syncEvent at hx
  split at hx
  · rw [List.mem_singleton.mp hx]
  · cases hx

theorem appendBoundary_buffersKept {own swap overrunA overrunB : List Event} (hown : Bufferless own) (hswap : Bufferless swap)
    (ha : Bufferless overrunA) (hb : Bufferless overrunB) : BuffersKept s (appendBoundary own swap overrunA overrunB s) := by
  obtain ⟨q, c, -, appended, adds, -, added, -⟩ := appendBoundary_adds own swap overrunA overrunB s
  have plain : Bufferless (q.entries.drop s.events.entries.length) := fun e he => by
    rcases added e he with h | h | h | h
    · exact hown e h
    · exact hswap e h
    · exact ha e h
    · exact hb e h
  rw [appended]
  exact (withEvents_buffersKept adds plain).trans (.of_same rfl)

theorem noticeBoth_buffersKept (n : Option Notice) (s : State) : BuffersKept s (noticeBoth n s) :=
  (takeNotice_buffersKept n).trans (takeNotice_buffersKept n)

theorem cycleBegin_buffersKept {own : Option EventKind} {u : State} (h : BuffersKept s u) : BuffersKept s (cycleBegin own u) := by
  unfold cycleBegin
  extract_lets t sch n s1
  have counted : BuffersKept u s1 := .of_same rfl
  exact h.trans (counted.trans ((noticeBoth_buffersKept (some n) s1).trans (appendBoundary_buffersKept (syncEvent_bufferless _ _)
    (swapEvents_bufferless _ _) (overrunEvents_bufferless _ _ _) (overrunEvents_bufferless _ _ _))))

theorem stopBoundary_buffersKept (s : State) : BuffersKept s (stopBoundary s) := by
  have stopped : BuffersKept s (s.withTimer s.timer.stopped) := .of_same rfl
  exact stopped.trans ((noticeBoth_buffersKept none _).trans (appendBoundary_buffersKept nofun nofun
    (overrunEvents_bufferless _ _ _) (overrunEvents_bufferless _ _ _)))

theorem endCycle_buffersKept (sync : SyncState) (own : Option EventKind) (s : State) : BuffersKept s (endCycle sync own s) := by
  unfold endCycle
  split
  · exact cycleBegin_buffersKept (.of_same rfl)
  · exact stopBoundary_buffersKept s
  · exact stopBoundary_buffersKept s
  · exact .refl s

theorem ownBoundary_buffersKept (s : State) : BuffersKept s (ownBoundary s) := by
  unfold ownBoundary
  split <;> exact endCycle_buffersKept _ _ s

theorem completeTick_buffersKept (s : State) : BuffersKept s (completeTick s) := by
  unfold completeTick
  split
  · split
    · exact ownBoundary_buffersKept s
    · exact .of_same rfl
  · exact .refl s

theorem syncEdge_buffersKept (s : State) : BuffersKept s (syncEdge s) := by
  unfold syncEdge
  extract_lets t s1
  have seen : BuffersKept s s1 := .of_same rfl
  split
  · split
    · exact seen
    · split
      · exact seen
      · exact cycleBegin_buffersKept (.of_same rfl)
      · split
        · exact seen.trans (endCycle_buffersKept ..)
        · exact .of_same rfl
      · exact seen.trans (endCycle_buffersKept ..)
  · exact .refl s

/-! ## The Schedule Store and the Host Port -/

theorem endCheck_buffersKept (s : State) : BuffersKept s (endCheck s) := by
  unfold endCheck
  split
  · split
    · exact .of_same rfl
    · refine BuffersGain.trans (.of_same ?_) (appendEvent_buffersKept rfl)
      rfl
  · exact .refl s

theorem endCopy_buffersKept (s : State) : BuffersKept s (endCopy s) := by
  unfold endCopy
  split
  · refine BuffersGain.trans (.of_same ?_) (appendEvent_buffersKept rfl)
    rfl
  · exact .refl s

theorem checkMove_buffersKept (s : State) : BuffersKept s (checkMove s) := by
  rcases checkMove_cases (s := s) with h | h | ⟨p, h⟩
  · rw [h]; exact .refl s
  · rw [h]; exact endCheck_buffersKept s
  · rw [h]; exact .of_same rfl

theorem checkMoves_buffersKept (n : Nat) : ∀ s, BuffersKept s (checkMoves n s) := by
  induction n with
  | zero => exact .refl
  | succ n ih => exact fun s => (checkMove_buffersKept s).trans (ih _)

theorem storeAct_buffersKept (s : State) : BuffersKept s (storeAct s) := by
  have drawn : BuffersKept s s.drawn := .of_same rfl
  unfold storeAct
  dsimp only
  split
  · split
    · exact drawn.trans (endCheck_buffersKept _)
    · exact drawn.trans (checkMoves_buffersKept ..)
  · split
    · split
      · exact drawn.trans (endCopy_buffersKept _)
      · split
        · exact drawn.trans (endCopy_buffersKept _)
        · exact drawn
    · exact .refl s

theorem windowRead_holders (w : WinTarget) (s : State) : (windowRead w s).2.holders = s.holders := by
  obtain ⟨latch, winError, schedule, choices, -, only, -⟩ := windowRead_only w s
  rw [only]
  rfl

theorem windowWrite_holders (w : WinTarget) (v : Byte) (s : State) : (windowWrite w v s).holders = s.holders := by
  have pending (f : Bank → Bank) : (writePending f s).holders = s.holders := by
    unfold writePending
    split <;> rfl
  cases w with
  | pendingEntry | pendingCount => exact pending _
  | _ => rfl

theorem plainWrite_holders (offset : BitVec 6) (v : Byte) (s : State) : (plainWrite offset v s).holders = s.holders := by
  unfold plainWrite
  split <;> rfl

end Blocks

/-! ## Commands -/

/-- A taken command leaves every buffer in as many places as it was in. -/
def KeepsBuffers (command : State → Except CmdStatus State) : Prop := ∀ s t, command s = .ok t → BuffersKept s t

theorem startCycles_keepsBuffers : KeepsBuffers startCycles := by
  intro s t h
  unfold startCycles at h
  split at h <;> cases h
  · exact cycleBegin_buffersKept (.of_same rfl)
  · exact .of_same rfl
  · exact .of_same rfl

theorem stopCycles_keepsBuffers : KeepsBuffers stopCycles := by
  intro s t h
  unfold stopCycles at h
  split at h
  · split at h <;> cases h <;> exact .of_same rfl
  · cases h; exact .of_same rfl
  · cases h; exact .refl _
  · cases h

theorem singleCycle_keepsBuffers : KeepsBuffers singleCycle := by
  intro s t h
  unfold singleCycle at h
  split at h <;> cases h
  exact cycleBegin_buffersKept (.of_same rfl)

theorem scheduleCommand_keepsBuffers (f : Schedule → Except CmdStatus Schedule) : KeepsBuffers (scheduleCommand f) := by
  intro s t h
  unfold scheduleCommand at h
  split at h <;> cases h
  exact .of_same rfl

theorem stationCommand_keepsBuffers (f : Station → Except CmdStatus Station) : KeepsBuffers (stationCommand f) := by
  intro s t h
  unfold stationCommand at h
  split at h
  · split at h <;> cases h
    exact .of_same rfl
  · cases h

theorem imageCommand_keepsBuffers (f : Fin 64 → ImageStore → ImageStore) : KeepsBuffers (imageCommand f) := by
  intro s t h
  unfold imageCommand at h
  split at h <;> cases h
  exact .of_same rfl

theorem postRequest_keepsBuffers : KeepsBuffers postRequest := by
  intro s t h
  unfold postRequest at h
  dsimp only at h
  split at h
  · cases h
  · split at h
    · cases h
    · split at h <;> cases h
      exact .of_same rfl

theorem cancelRequest_keepsBuffers : KeepsBuffers cancelRequest := by
  intro s t h
  unfold cancelRequest at h
  dsimp only at h
  split at h
  · cases h
  · split at h
    · cases h; exact .of_same rfl
    · split at h <;> cases h

/-- The command of a mailbox is given the mailbox as it stands. -/
theorem mailboxCommand_keepsBuffers {f : Fin 48 → Mailbox → State → Except CmdStatus State}
    (h : ∀ i s t, f i s.mailboxes[i] s = .ok t → BuffersKept s t) : KeepsBuffers (mailboxCommand f) := by
  intro s t ht
  unfold mailboxCommand at ht
  split at ht
  · exact h _ s t ht
  · cases ht

theorem claimMailbox_buffersKept (i : Fin 48) (s t : State) (h : claimMailbox i s.mailboxes[i] s = .ok t) : BuffersKept s t := by
  unfold claimMailbox at h
  split at h <;> cases h
  next full =>
  refine setMailbox_gain (p := s.pool) [] (List.append_nil _).symm (fun legal => ?_) fun _ => .of_eq rfl
  obtain ⟨current, next, -⟩ := legal.of_full full
  exact ⟨current, next, rfl⟩

/-- RELEASE returns the current buffer, and a next one takes its place (R113). -/
theorem releaseMailbox_buffersKept (i : Fin 48) (s t : State) (h : releaseMailbox i s.mailboxes[i] s = .ok t) : BuffersKept s t := by
  unfold releaseMailbox at h
  split at h <;> cases h
  case h_1 claimed =>
    rw [State.giveBuffer_eq]
    refine setMailbox_gain _ rfl (fun legal => ?_) fun _ => ?_
    · obtain ⟨-, next, fresh⟩ := legal.of_claimed claimed
      exact ⟨rfl, next, fresh⟩
    · exact List.perm_append_comm.trans (.of_eq (List.append_nil _).symm)
  case h_2 claimedNext =>
    rw [State.giveBuffer_eq]
    refine setMailbox_gain _ rfl (fun legal => ?_) fun _ => ?_
    · obtain ⟨-, next, -⟩ := legal.of_claimedNext claimedNext
      exact ⟨next, rfl, rfl⟩
    · rw [Mailbox.places, Option.toList_none, List.append_nil]
      exact List.perm_append_comm.trans (.of_eq (List.append_nil _).symm)

/-- FLUSH returns both buffers (R114). -/
theorem flushMailbox_buffersKept (i : Fin 48) (s t : State) (h : flushMailbox i s.mailboxes[i] s = .ok t) : BuffersKept s t := by
  cases h
  rw [Pool.giveAll_pair]
  exact setMailbox_gain _ rfl (fun _ => ⟨rfl, rfl, rfl⟩) fun _ => .of_eq (List.append_nil _).symm

/-- The head that POP removes gives up its buffer, and an OVERFLOW brings none (R148). -/
theorem afterPop_attached {q : EventQueue} {e : Event} {rest : List Event} (h : q.entries = e :: rest) (cycle : Half) :
    (e.buffer.toList ++ attached (q.afterPop rest cycle).entries) = attached q.entries := by
  have kept : attached (q.afterPop rest cycle).entries = attached rest := by
    unfold EventQueue.afterPop
    dsimp only
    split
    · simp [attached]
    · rfl
  rw [kept, h]
  unfold attached
  cases hb : e.buffer <;> simp [hb]

/-- POP returns the buffer of the head event (R148). -/
theorem popEvent_keepsBuffers : KeepsBuffers popEvent := by
  intro s t h
  unfold popEvent at h
  split at h <;> cases h
  next e rest head =>
  have given := giveBuffer_gain (s.withEvents (s.events.afterPop rest s.timer.cycleCount)) e.buffer
  refine ⟨fun legal b => ?_, given.mailboxes⟩
  have returned := given.places legal b
  have popped := s.placesOf_withEvents b (s.events.afterPop rest s.timer.cycleCount)
  rw [← afterPop_attached head s.timer.cycleCount, List.count_append] at popped
  rw [Option.toList_none, List.count_nil]
  omega

end Sys2Proof.Machine
end

section
/-! Every row of the table, and every period of the clock, keeps each of the 72 buffers in exactly one place (R100). -/

namespace Sys2Proof.Machine

/-! ## Steps that keep every buffer in one place -/

/-- Each buffer is in exactly one place, and the mailboxes are legal (R100, R108). -/
structure State.BuffersPlaced (s : State) : Prop where
  places : s.bufferPlaces.Perm (List.finRange 72)
  mailboxes : s.MailboxesLegal

/-- The step keeps each buffer in one place if it starts with legal engines. -/
def BuffersStay (s t : State) : Prop := (∀ l, (s.engine l).Legal) → s.BuffersPlaced → t.BuffersPlaced

section Steps

variable {s t u : State}

/-- A step that leaves every buffer in as many places as it was in. -/
theorem BuffersGain.placed (h : BuffersKept s t) (k : s.BuffersPlaced) : t.BuffersPlaced where
  places := by
    refine (List.perm_iff_count.mpr fun b => ?_).trans k.places
    exact h.places k.mailboxes b
  mailboxes := h.mailboxes k.mailboxes

theorem BuffersGain.stay (h : BuffersKept s t) : BuffersStay s t := fun _ => h.placed

/-- A step of a line whose own engine is legal. -/
theorem BuffersStay.of_line {l : Line} (h : (s.engine l).Legal → BuffersKept s t) : BuffersStay s t := fun legal => (h (legal l)).placed

theorem BuffersStay.trans (h : BuffersStay s t) (engines : EnginesKept s t) (k : BuffersStay t u) : BuffersStay s u :=
  fun legal placed => k (engines legal) (h legal placed)

/-! ## What a moment owes (log 8) -/

theorem settleLine_buffersKept {l : Line} (h : (s.engine l).Legal) : BuffersKept s (settleLine l s) := by
  have ended := openSlotEnd_legal h
  have begun := slotBegin_legal ended
  have first := startAcyclic_legal begun
  have second := startAcyclic_legal first
  have third := startAcyclic_legal second
  exact openSlotEnd_buffersKept.trans ((slotBegin_buffersKept ended).trans ((startAcyclic_buffersKept begun).trans
    ((startAcyclic_buffersKept first).trans ((startAcyclic_buffersKept second).trans (startAcyclic_buffersKept third)))))

theorem settleLine_buffersStay (l : Line) (s : State) : BuffersStay s (settleLine l s) := .of_line settleLine_buffersKept

theorem settle_buffersStay (s : State) : BuffersStay s (settle s) := by
  have drawn : BuffersKept s s.drawn := .of_same rfl
  have both (l m : Line) : BuffersStay s.drawn (settleLine m (settleLine l s.drawn)) :=
    (settleLine_buffersStay l _).trans (settleLine_enginesKept l _) (settleLine_buffersStay m _)
  unfold settle
  dsimp only
  split
  · split
    · split
      · exact drawn.stay.trans (.of_lines rfl) (both .a .b)
      · exact drawn.stay.trans (.of_lines rfl) (both .b .a)
    · exact settleLine_buffersStay .a s
  · split
    · exact settleLine_buffersStay .b s
    · exact (BuffersGain.refl s).stay

theorem claimEdge_buffersKept (l : Line) (s t : State) : BuffersKept t (claimEdge l s t) := by
  rcases claimEdge_cases l s t with h | ⟨-, -, h⟩
  · rw [h]; exact .refl t
  · rw [h]; exact setEngine_buffersKept rfl rfl

theorem settleMoment_buffersStay (s : State) : BuffersStay s (settleMoment s) :=
  (settle_buffersStay s).trans (settle_enginesKept s) ((claimEdge_buffersKept .a s _).trans (claimEdge_buffersKept .b s _)).stay

/-! ## Accesses, events and commands -/

theorem access_buffersStay {f : State → State} (h : ∀ u, BuffersStay u (f u)) : BuffersStay s (s.access f) := by
  have quiet : BuffersKept s (s.withHost { s.host with data := none }) := .of_same rfl
  unfold State.access
  split
  · exact (BuffersGain.refl s).stay
  · exact quiet.stay.trans (.of_lines rfl) (h _)

theorem event_buffersStay {f : State → State} (h : BuffersStay s (f s)) : BuffersStay s (s.event f) := by
  unfold State.event
  split
  · exact (BuffersGain.refl s).stay
  · exact h

theorem commandAccess_buffersStay {command : State → Except CmdStatus State} (code : Byte)
    (h : ∀ u t, command u = .ok t → BuffersStay u t) : BuffersStay s (commandAccess code command s) :=
  access_buffersStay fun u legal placed => by
    have answered (v : State) (x : HostPort) : BuffersKept v (v.withHost x) := .of_same rfl
    unfold State.give
    split
    · next t ht => exact (answered t _).placed (h u t ht legal placed)
    · exact (answered u _).placed placed

theorem lineCommand_buffersStay {f : Line → State → Except CmdStatus State}
    (h : ∀ l s t, (s.engine l).Legal → f l s = .ok t → BuffersKept s t) (s t : State) (ht : lineCommand f s = .ok t) :
    BuffersStay s t := by
  unfold lineCommand at ht
  split at ht
  · exact .of_line fun legal => h _ s t legal ht
  · cases ht

/-- A reset puts every buffer back on the free list (R107). -/
theorem reset_buffersPlaced (h : t.holders = State.reset.holders) : t.BuffersPlaced := by
  obtain ⟨places, -, mailboxes⟩ := State.reset_buffersLegal
  exact (BuffersGain.of_same h).placed ⟨places, mailboxes⟩

/-! ## Every row -/

/-- A row of the table keeps each buffer in one place. -/
def RowKeepsBuffers (c : Instr) (s : State) : Prop := ∃ t, exec c s = .next t ∧ BuffersStay s t

theorem rowKeepsBuffers_access {c : Instr} {f : State → State} (h : exec c s = .next (s.access f)) (k : ∀ u, BuffersKept u (f u)) :
    RowKeepsBuffers c s := ⟨_, h, access_buffersStay fun u => (k u).stay⟩

/-- An access that has no part in the buffers. -/
theorem rowKeepsBuffers_free {c : Instr} {f : State → State} (h : exec c s = .next (s.access f))
    (k : ∀ u, (f u).holders = u.holders) : RowKeepsBuffers c s := rowKeepsBuffers_access h fun u => .of_same (k u)

theorem rowKeepsBuffers_event {c : Instr} {f : State → State} (h : exec c s = .next (s.event f)) (k : BuffersStay s (f s)) :
    RowKeepsBuffers c s := ⟨_, h, event_buffersStay k⟩

theorem rowKeepsBuffers_command {c : Instr} {code : Byte} {command : State → Except CmdStatus State}
    (h : exec c s = .next (commandAccess code command s)) (k : ∀ u t, command u = .ok t → BuffersStay u t) : RowKeepsBuffers c s :=
  ⟨_, h, commandAccess_buffersStay code k⟩

theorem rowKeepsBuffers_keeps {c : Instr} {code : Byte} {command : State → Except CmdStatus State}
    (h : exec c s = .next (commandAccess code command s)) (k : KeepsBuffers command) : RowKeepsBuffers c s :=
  rowKeepsBuffers_command h fun u t ht => (k u t ht).stay

/-- A row of a line's traffic moves the buffers as its own engine does. -/
theorem rowKeepsBuffers_line {c : Instr} {l : Line} (hl : lineOf c = some l) (s : State) : RowKeepsBuffers c s := by
  cases c <;> cases hl
  case slotBegin => exact rowKeepsBuffers_event rfl (.of_line slotBegin_buffersKept)
  case characterTransmitted => exact rowKeepsBuffers_event rfl (.of_line characterSent_buffersKept)
  case receivedCharacter =>
    exact rowKeepsBuffers_event rfl (startEdge_buffersKept.trans (completeCharacter_buffersKept _)).stay
  case falseStart => exact rowKeepsBuffers_event rfl falseStart_buffersKept.stay
  case replyWindowExpiry => exact rowKeepsBuffers_event rfl windowExpiry_buffersKept.stay
  case characterGapExpiry => exact rowKeepsBuffers_event rfl charGapExpiry_buffersKept.stay
  case quietIdleExpiry =>
    refine rowKeepsBuffers_event rfl ?_
    split
    · exact (BuffersGain.refl s).stay
    · exact endQuiet_buffersKept.stay
  case quietLimitExpiry => exact rowKeepsBuffers_event rfl endQuiet_buffersKept.stay
  case frameGapEnd => exact rowKeepsBuffers_event rfl (.of_line frameGapEnd_buffersKept)
  case openSlotEnd => exact rowKeepsBuffers_event rfl openSlotEnd_buffersKept.stay
  case acyclicStart => exact rowKeepsBuffers_event rfl (.of_line startAcyclic_buffersKept)
  case startEdge => exact rowKeepsBuffers_event rfl startEdge_buffersKept.stay
  case rxReturnedTo1 => exact rowKeepsBuffers_event rfl rxReturned_buffersKept.stay

/-- A row that is the access its own name describes, beside the traffic of the lines. -/
theorem rowKeepsBuffers_wellFormed (c : Instr) (s : State) (h : c.wellFormed = true) (hl : lineOf c = none) : RowKeepsBuffers c s := by
  cases c with
  | cycleStart => exact rowKeepsBuffers_keeps rfl startCycles_keepsBuffers
  | cycleStop => exact rowKeepsBuffers_keeps rfl stopCycles_keepsBuffers
  | cycleSingle => exact rowKeepsBuffers_keeps rfl singleCycle_keepsBuffers
  | changeover | abortChangeover | copyActive => exact rowKeepsBuffers_keeps rfl (scheduleCommand_keepsBuffers _)
  | lineEnable => exact rowKeepsBuffers_command rfl (lineCommand_buffersStay fun _ _ _ => enableLine_buffersKept)
  | lineDisable => exact rowKeepsBuffers_command rfl (lineCommand_buffersStay fun _ _ _ _ => disableLine_buffersKept)
  | park | unpark | clearCounters => exact rowKeepsBuffers_keeps rfl (stationCommand_keepsBuffers _)
  | publishImage | markImage => exact rowKeepsBuffers_keeps rfl (imageCommand_keepsBuffers _)
  | unmarkAll => exact rowKeepsBuffers_keeps rfl fun _ _ ht => by cases ht; exact .of_same rfl
  | claim => exact rowKeepsBuffers_keeps rfl (mailboxCommand_keepsBuffers claimMailbox_buffersKept)
  | release => exact rowKeepsBuffers_keeps rfl (mailboxCommand_keepsBuffers releaseMailbox_buffersKept)
  | flush => exact rowKeepsBuffers_keeps rfl (mailboxCommand_keepsBuffers flushMailbox_buffersKept)
  | post => exact rowKeepsBuffers_keeps rfl postRequest_keepsBuffers
  | cancel => exact rowKeepsBuffers_keeps rfl cancelRequest_keepsBuffers
  | pop => exact rowKeepsBuffers_keeps rfl popEvent_keepsBuffers
  | softReset => exact rowKeepsBuffers_command rfl fun _ _ ht _ _ => by cases ht; exact reset_buffersPlaced rfl
  | badCommand code =>
    have hcode : commandOfCode code = none := by simpa [Instr.wellFormed] using h
    have run : exec (.badCommand code) s = badCode code s := by rw [exec, execBadCommand, hcode]
    exact rowKeepsBuffers_keeps (run.trans rfl) fun _ _ ht => by cases ht
  | cytModeWrite | cytPrescaleWrite | cytWindowWrite | cytPeriodHighWrite =>
    exact rowKeepsBuffers_free rfl fun _ => by unfold settingWrite; dsimp only; split <;> rfl
  | divisorLowWrite | overrunCounterWrite | strayCounterWrite =>
    exact rowKeepsBuffers_access rfl fun _ => setEngine_buffersKept rfl rfl
  | divisorHighWrite =>
    exact rowKeepsBuffers_access rfl fun u => by
      dsimp only
      split
      · exact setEngine_buffersKept rfl rfl
      · exact .of_same rfl
  | lineSettingWrite l which v =>
    exact rowKeepsBuffers_access rfl fun u => by
      split
      · exact setEngine_buffersKept rfl (by cases which <;> rfl)
      · exact .of_same rfl
  | irqStatusWrite => exact rowKeepsBuffers_free rfl fun _ => by split <;> rfl
  | cytPeriodLowWrite | cytValueLowRead | cycleCountLowRead | schChangeoversLowRead | poolMissesWrite | hostStatusWrite
  | irqEnableWrite => exact rowKeepsBuffers_free rfl fun _ => rfl
  | winDataRead | winPeekRead => exact rowKeepsBuffers_free rfl fun u => windowRead_holders _ u
  | winDataWrite v | winPeekWrite v => exact rowKeepsBuffers_free rfl fun u => windowWrite_holders _ v u
  | registerWrite offset v =>
    have hrow : ownRowOfWrite offset v = none := by simpa [Instr.wellFormed] using h
    have run : exec (.registerWrite offset v) s = .next (s.access (plainWrite offset v)) := by rw [exec, execRegisterWrite, hrow]
    exact rowKeepsBuffers_free run (plainWrite_holders offset v)
  | pinReset | powerUp => exact ⟨_, rfl, fun _ _ => reset_buffersPlaced rfl⟩
  | resetRelease => exact ⟨_, rfl, BuffersGain.stay (.of_same rfl)⟩
  | tick =>
    refine rowKeepsBuffers_event rfl ?_
    split
    · exact (settle_buffersStay s).trans (settle_enginesKept s) (completeTick_buffersKept _).stay
    · exact (BuffersGain.refl s).stay
  | periodEnd | syncWindowExpiry =>
    refine rowKeepsBuffers_event rfl ?_
    split
    · exact (settle_buffersStay s).trans (settle_enginesKept s) (ownBoundary_buffersKept _).stay
    · exact (BuffersGain.refl s).stay
  | syncFallingEdge => exact rowKeepsBuffers_event rfl (syncEdge_buffersKept s).stay
  | syncSeenHigh =>
    refine rowKeepsBuffers_event rfl (BuffersGain.stay ?_)
    unfold syncHigh
    split <;> exact .of_same rfl
  | changeoverCheckEnd => exact rowKeepsBuffers_event rfl (endCheck_buffersKept s).stay
  | copyComplete => exact rowKeepsBuffers_event rfl (endCopy_buffersKept s).stay
  | _ => cases hl

/-- Every row of the table, through the row it spells (log 16). -/
theorem rowKeepsBuffers (c : Instr) (s : State) : RowKeepsBuffers c s := by
  cases hl : lineOf c with
  | some l => exact rowKeepsBuffers_line hl s
  | none =>
    by_cases hw : c.wellFormed = true
    · exact rowKeepsBuffers_wellFormed c s hw hl
    · have spelled {c' : Instr} (he : exec c s = exec c' s) (hc : c'.wellFormed = true) (hn : lineOf c' = none) :
          RowKeepsBuffers c s := by
        obtain ⟨t, ht, stay⟩ := rowKeepsBuffers_wellFormed c' s hc hn
        exact ⟨t, he.trans ht, stay⟩
      cases c <;> simp [Instr.wellFormed] at hw
      case badCommand code =>
        obtain ⟨c', hc⟩ := Option.ne_none_iff_exists'.mp hw
        exact spelled (exec_badCommand s hc) (wellFormed_ofCode hc).1 (lineOf_ofCode hc)
      case registerWrite offset v =>
        obtain ⟨c', hc⟩ := Option.ne_none_iff_exists'.mp hw
        exact spelled (exec_registerWrite s hc) (wellFormed_ofOffset hc).1 (lineOf_ofOffset hc)

/-! ## Every period -/

section Sample

variable {l : Line} {level : Bool}

theorem sampleCharacter_buffersKept (p : RxProgress) : BuffersKept s (sampleCharacter l level p s) := by
  have noted (rx : Receiver) : BuffersKept s (s.setEngine l { s.engine l with rx := rx }) := setEngine_buffersKept rfl rfl
  by_cases hdecides : (p.count + 1) % 16 = 10
  · by_cases hstart : p.count + 1 = 10 ∧ majority (votesAfter level p) = true
    · rw [sampleCharacter_falseStart hstart.1 hstart.2]; exact falseStart_buffersKept
    · by_cases hlast : p.count + 1 = 170
      · rw [sampleCharacter_complete hlast]; exact completeCharacter_buffersKept _
      · rw [sampleCharacter_bit hdecides hstart hlast]; exact noted _
  · rw [sampleCharacter_vote hdecides]; exact noted _

theorem sampleAt_buffersKept : BuffersKept s (sampleAt l level s) := by
  have remembered (u : State) : BuffersKept u (rememberSample l level u) := by
    by_cases hs : (u.engine l).state = .off
    · rw [rememberSample_off hs]; exact .refl u
    · rw [rememberSample_seen hs]; exact setEngine_buffersKept rfl rfl
  unfold sampleAt
  refine BuffersGain.trans ?_ (remembered _)
  split
  · exact sampleCharacter_buffersKept _
  · split
    · exact startEdge_buffersKept
    · exact .refl s

theorem lineMoment_buffersKept (h : (s.engine l).Legal) : BuffersKept s (lineMoment l s) := by
  unfold lineMoment
  dsimp only
  split
  · split
    · exact characterSent_buffersKept h
    · exact .refl s
  · split
    · exact windowExpiry_buffersKept
    · exact .refl s
  · split
    · exact charGapExpiry_buffersKept
    · exact .refl s
  · split
    · exact endQuiet_buffersKept
    · split
      · exact endQuiet_buffersKept
      · exact .refl s
  · split
    · exact frameGapEnd_buffersKept h
    · exact .refl s
  · exact .refl s
  · exact .refl s

theorem lineSample_buffersKept : BuffersKept s (lineSample l s) := by
  rcases Nat.lt_or_ge (s.engine l).sampleClock ((s.engine l).divisor.toNat + 1) with h | h
  · rw [lineSample_notDue h]; exact .refl s
  · rw [lineSample_due h]
    have restarted : BuffersKept s (s.setEngine l { s.engine l with sampleClock := 0 }) := setEngine_buffersKept rfl rfl
    have pin : BuffersKept s (s.sampled l (s.nextPin l)) := restarted.trans (.of_same rfl)
    exact pin.trans sampleAt_buffersKept

end Sample

theorem lineMoment_buffersStay (l : Line) (s : State) : BuffersStay s (lineMoment l s) := .of_line lineMoment_buffersKept

theorem lineAct_buffersStay (l : Line) (s : State) : BuffersStay s (lineAct l s) := by
  have sampled (u : State) : BuffersStay u (lineMoment l (lineMoment l (lineSample l u))) :=
    lineSample_buffersKept.stay.trans (lineSample_enginesKept l u)
      ((lineMoment_buffersStay l _).trans (lineMoment_enginesKept l _) (lineMoment_buffersStay l _))
  unfold lineAct
  dsimp only
  split
  · exact (lineMoment_buffersStay l s).trans (lineMoment_enginesKept l s) (sampled _)
  · exact sampled s

/-- Each actor of a period. -/
theorem Actor.act_buffersStay (a : Actor) (s : State) : BuffersStay s (a.act s) := by
  unfold Actor.act
  split
  · cases a with
    | timer => exact (completeTick_buffersKept s).stay
    | sync => exact (syncEdge_buffersKept s).stay
    | line l => exact lineAct_buffersStay l s
    | store => exact (storeAct_buffersKept s).stay
  · exact (BuffersGain.refl s).stay

theorem actors_buffersStay (actors : List Actor) : ∀ s, BuffersStay s (actors.foldl (fun u a => a.act u) s) := by
  induction actors with
  | nil => exact fun s => (BuffersGain.refl s).stay
  | cons a actors ih => exact fun s => (a.act_buffersStay s).trans (a.act_enginesKept s) (ih _)

theorem countAll_buffersKept (s : State) : BuffersKept s (countAll s) := by
  have timer : BuffersKept s (countTimer s) := by rw [countTimer_eq_later]; exact .of_same rfl
  have counted (l : Line) (u : State) : BuffersKept u (u.setEngine l (u.engine l).countPeriod) := setEngine_buffersKept rfl rfl
  unfold countAll
  extract_lets s1 s2
  have both : BuffersKept s1 s2 := (counted .a s1).trans (counted .b _)
  exact timer.trans (both.trans (.of_same rfl))

theorem clockPeriod_buffersStay (s : State) : BuffersStay s (clockPeriod s) := by
  unfold clockPeriod
  split
  · exact (BuffersGain.refl s).stay
  · obtain ⟨n, -, hdue, -⟩ := dueActors_cases (countAll (settleMoment s))
    have counted : BuffersKept (settleMoment s) (dueActors (countAll (settleMoment s))).2 := by
      rw [hdue]
      exact (countAll_buffersKept _).trans (.of_same rfl)
    have engines : EnginesKept (settleMoment s) (dueActors (countAll (settleMoment s))).2 := by
      rw [hdue]
      exact (countAll_enginesKept _).trans (.of_lines rfl)
    exact (settleMoment_buffersStay s).trans (settleMoment_enginesKept s) (counted.stay.trans engines (actors_buffersStay _ _))

end Steps

/-- Settles O46: a command keeps each buffer in one place as its row does, and so does a period of the clock. -/
theorem everyBufferStaysInOnePlace : Obligations.EveryBufferStaysInOnePlace := by
  unfold Obligations.EveryBufferStaysInOnePlace
  intro s t ⟨places, engines, mailboxes⟩ ht
  have placed : s.BuffersPlaced := ⟨places, mailboxes⟩
  have stays : t.BuffersPlaced := by
    cases hp : s.pending with
    | nil =>
      simp only [step, hp] at ht
      cases ht
      exact clockPeriod_buffersStay s engines placed
    | cons c rest =>
      simp only [step, hp] at ht
      obtain ⟨t', ht', stay⟩ := rowKeepsBuffers c { s with pending := rest }
      obtain rfl : t' = t := Host.Outcome.next.inj (ht'.symm.trans ht)
      exact stay engines ⟨places, mailboxes⟩
  exact ⟨stays.places, enginesStayLegal s t engines ht, stays.mailboxes⟩

end Sys2Proof.Machine
end

section
/-! What a row of the table can do to an output image: nothing, its publication, a window write into its staged copy, or a reset
(R119, R120). -/

namespace Sys2Proof.Machine

/-! ## Image by image -/

/-- The image is as it was, or its staged copy has been published (R119). -/
def Image.Publishes (i j : Image) : Prop := j = i ∨ j = i.publish

/-- At most the staged copy has changed (R120). -/
def Image.Stages (i j : Image) : Prop := j = { i with staged := j.staged }

/-- Each image of the store has changed in this way at most. -/
def EachImage (R : Image → Image → Prop) (s t : State) : Prop := ∀ n : Fin 64, R s.images.images[n] t.images.images[n]

theorem Image.Publishes.refl (i : Image) : i.Publishes i := .inl rfl

theorem Image.Stages.refl (i : Image) : i.Stages i := rfl

/-- Live copy and generation change by a publication, which takes both from what they were (R119). -/
theorem Image.Publishes.changed {i j : Image} (h : i.Publishes j) (hc : j.live ≠ i.live ∨ j.generation ≠ i.generation) :
    j = i.publish := by
  rcases h with rfl | h
  · simp at hc
  · exact h

/-- A publication leaves the staged copy as it is. -/
theorem Image.Publishes.staged {i j : Image} (h : i.Publishes j) : j.staged = i.staged := by
  rcases h with rfl | rfl <;> rfl

/-- A staged copy is no part of what is live. -/
theorem Image.Stages.live {i j : Image} (h : i.Stages j) : j.live = i.live ∧ j.generation = i.generation := by
  unfold Image.Stages at h
  rw [h]
  exact ⟨rfl, rfl⟩

section Rows

variable {R : Image → Image → Prop} {s t u : State} {c : Instr}

theorem eachImage_publishes_of_same (h : t.images.images = s.images.images) : EachImage Image.Publishes s t := fun n => by
  rw [h]; exact .refl _

/-- Steps that leave the images alone may come before a change of them. -/
theorem EachImage.after (h : EachImage R u t) (hu : u.images = s.images) : EachImage R s t := fun n => hu ▸ h n

/-! ## Publications -/

theorem publishMarked_publishes (x : ImageStore) (n : Fin 64) : x.images[n].Publishes x.publishMarked.images[n] := by
  simp only [ImageStore.publishMarked, Fin.getElem_fin, Vector.getElem_ofFn]
  split
  · exact .inr rfl
  · exact .inl rfl

/-- PUBLISH_IMAGE publishes the image that it names (R122). -/
theorem setAt_publish_publishes (x : Vector Image 64) (m n : Fin 64) : x[n].Publishes (setAt x m x[m].publish)[n] := by
  by_cases h : n = m
  · subst h; rw [setAt_same]; exact .inr rfl
  · rw [setAt_other _ _ h]; exact .refl _

/-! ## Boundaries (R22, R23, R126) -/

theorem cycleBegin_publishes (own : Option EventKind) (s : State) : EachImage Image.Publishes s (cycleBegin own s) := by
  obtain ⟨⟨-, images, -⟩, -⟩ := cycleBegin_begun own s s.timer rfl
  intro n
  have published := (images n).2
  split at published
  · exact .inr published
  · exact .inl published

theorem stopBoundary_images (s : State) : (stopBoundary s).images = s.images := by
  obtain ⟨-, -, -, -, frame⟩ := stopBoundary_ended s s.timer
  exact (congrArg State.images frame :)

theorem endCycle_publishes (sync : SyncState) (own : Option EventKind) (s : State) :
    EachImage Image.Publishes s (endCycle sync own s) := by
  unfold endCycle
  split
  · exact cycleBegin_publishes own _
  · exact eachImage_publishes_of_same (congrArg _ (stopBoundary_images s))
  · exact eachImage_publishes_of_same (congrArg _ (stopBoundary_images s))
  · exact eachImage_publishes_of_same rfl

theorem ownBoundary_publishes (s : State) : EachImage Image.Publishes s (ownBoundary s) := by
  unfold ownBoundary
  split <;> exact endCycle_publishes _ _ s

theorem completeTick_publishes (s : State) : EachImage Image.Publishes s (completeTick s) := by
  unfold completeTick
  split
  · split
    · exact ownBoundary_publishes s
    · exact eachImage_publishes_of_same rfl
  · exact eachImage_publishes_of_same rfl

theorem syncEdge_publishes (s : State) : EachImage Image.Publishes s (syncEdge s) := by
  unfold syncEdge
  extract_lets t s1
  split
  · split
    · exact eachImage_publishes_of_same rfl
    · split
      · exact eachImage_publishes_of_same rfl
      · exact (cycleBegin_publishes none _).after rfl
      · split
        · exact (endCycle_publishes _ _ s1).after rfl
        · exact eachImage_publishes_of_same rfl
      · exact (endCycle_publishes _ _ s1).after rfl
  · exact eachImage_publishes_of_same rfl

theorem settle_images (s : State) : (settle s).images = s.images := by
  have line (l : Line) (u : State) : (settleLine l u).images = u.images := (settleLine_lineFrame l u).images
  unfold settle
  dsimp only
  split
  · split
    · split <;> rw [line, line, State.drawn_images]
    · exact line .a s
  · split
    · exact line .b s
    · rfl

/-! ## The Schedule Store's events (R41, R47) -/

theorem endCheck_images (s : State) : (endCheck s).images = s.images := by
  unfold endCheck
  split
  · split <;> rfl
  · rfl

theorem endCopy_images (s : State) : (endCopy s).images = s.images := by
  unfold endCopy
  split <;> rfl

/-! ## The window and the registers -/

theorem windowRead_images (w : WinTarget) (s : State) : (windowRead w s).2.images = s.images := by
  obtain ⟨latch, winError, schedule, choices, -, only, -⟩ := windowRead_only w s
  rw [only]

/-- A window write reaches no image but in its staged copy (R120). -/
theorem windowWrite_stages (w : WinTarget) (v : Byte) (s : State) : EachImage Image.Stages s (windowWrite w v s) := by
  have pending (f : Bank → Bank) : EachImage Image.Stages s (writePending f s) := by
    unfold writePending
    split <;> exact fun _ => .refl _
  cases w with
  | pendingEntry | pendingCount => rw [windowWrite]; exact pending _
  | staged m k =>
    intro n
    simp only [windowWrite, State.withImages_images]
    by_cases h : n = m
    · subst h; rw [setAt_same]; exact rfl
    · rw [setAt_other _ _ h]; exact .refl _
  | _ => exact fun _ => .refl _

theorem plainWrite_images (offset : BitVec 6) (v : Byte) (s : State) : (plainWrite offset v s).images = s.images := by
  unfold plainWrite
  split <;> rfl

/-! ## Commands -/

/-- A command that leaves the Output Image Store alone. -/
def ImagesFree (command : State → Except CmdStatus State) : Prop := ∀ s t, command s = .ok t → t.images = s.images

/-- A command that changes images by publication only. -/
def PublishesOnly (command : State → Except CmdStatus State) : Prop := ∀ s t, command s = .ok t → EachImage Image.Publishes s t

theorem ImagesFree.publishesOnly {command : State → Except CmdStatus State} (h : ImagesFree command) : PublishesOnly command :=
  fun s t ht => eachImage_publishes_of_same (congrArg _ (h s t ht))

theorem startCycles_publishesOnly : PublishesOnly startCycles := by
  intro s t ht
  unfold startCycles at ht
  split at ht <;> cases ht
  · exact cycleBegin_publishes none _
  · exact eachImage_publishes_of_same rfl
  · exact eachImage_publishes_of_same rfl

theorem stopCycles_imagesFree : ImagesFree stopCycles := by
  intro s t ht
  unfold stopCycles at ht
  split at ht
  · split at ht <;> cases ht <;> rfl
  · cases ht; rfl
  · cases ht; rfl
  · cases ht

theorem singleCycle_publishesOnly : PublishesOnly singleCycle := by
  intro s t ht
  unfold singleCycle at ht
  split at ht <;> cases ht
  exact cycleBegin_publishes none _

theorem imageCommand_publishesOnly {f : Fin 64 → ImageStore → ImageStore}
    (h : ∀ m x (n : Fin 64), Image.Publishes x.images[n] (f m x).images[n]) : PublishesOnly (imageCommand f) := by
  intro s t ht
  unfold imageCommand at ht
  split at ht <;> cases ht
  exact h _ s.images

theorem scheduleCommand_imagesFree (f : Schedule → Except CmdStatus Schedule) : ImagesFree (scheduleCommand f) := by
  intro s t ht
  unfold scheduleCommand at ht
  split at ht <;> cases ht
  rfl

theorem lineCommand_imagesFree {f : Line → State → Except CmdStatus State} (h : ∀ l s t, f l s = .ok t → LineFrame l s t) :
    ImagesFree (lineCommand f) := by
  intro s t ht
  unfold lineCommand at ht
  split at ht
  · exact (h _ s t ht).images
  · cases ht

theorem stationCommand_imagesFree (f : Station → Except CmdStatus Station) : ImagesFree (stationCommand f) := by
  intro s t ht
  unfold stationCommand at ht
  split at ht
  · split at ht <;> cases ht
    rfl
  · cases ht

theorem mailboxCommand_imagesFree {f : Fin 48 → Mailbox → State → Except CmdStatus State} (h : ∀ i m, ImagesFree (f i m)) :
    ImagesFree (mailboxCommand f) := by
  intro s t ht
  unfold mailboxCommand at ht
  split at ht
  · exact h _ _ s t ht
  · cases ht

theorem claimMailbox_imagesFree (i : Fin 48) (m : Mailbox) : ImagesFree (claimMailbox i m) := by
  intro s t ht
  unfold claimMailbox at ht
  split at ht <;> cases ht
  rfl

theorem releaseMailbox_imagesFree (i : Fin 48) (m : Mailbox) : ImagesFree (releaseMailbox i m) := by
  intro s t ht
  unfold releaseMailbox at ht
  split at ht <;> cases ht <;> rfl

theorem flushMailbox_imagesFree (i : Fin 48) (m : Mailbox) : ImagesFree (flushMailbox i m) := by
  intro s t ht
  cases ht; rfl

theorem postRequest_imagesFree : ImagesFree postRequest := by
  intro s t ht
  unfold postRequest at ht
  dsimp only at ht
  split at ht
  · cases ht
  · split at ht
    · cases ht
    · split at ht <;> cases ht
      rfl

theorem cancelRequest_imagesFree : ImagesFree cancelRequest := by
  intro s t ht
  unfold cancelRequest at ht
  dsimp only at ht
  split at ht
  · cases ht
  · split at ht
    · cases ht; rfl
    · split at ht <;> cases ht

theorem popEvent_imagesFree : ImagesFree popEvent := by
  intro s t ht
  unfold popEvent at ht
  split at ht <;> cases ht
  rfl

/-! ## Accesses and events -/

theorem access_eachImage (refl : ∀ i, R i i) {f : State → State} (h : ∀ u, EachImage R u (f u)) : EachImage R s (s.access f) := by
  unfold State.access
  split
  · exact fun _ => refl _
  · exact (h _).after rfl

theorem event_eachImage (refl : ∀ i, R i i) {f : State → State} (h : EachImage R s (f s)) : EachImage R s (s.event f) := by
  unfold State.event
  split
  · exact fun _ => refl _
  · exact h

theorem commandAccess_publishes {command : State → Except CmdStatus State} (code : Byte) (h : PublishesOnly command) :
    EachImage Image.Publishes s (commandAccess code command s) :=
  access_eachImage .refl fun u => by
    unfold State.give
    split
    · next t ht => exact h u t ht
    · exact eachImage_publishes_of_same rfl

/-! ## Every row -/

/-- The rows that write into the window: WIN_DATA_WRITE, WIN_PEEK_WRITE, and the REGISTER_WRITEs that spell them (R157, log 16). -/
def IsWindowWrite (c : Instr) : Prop :=
  ∃ v, c = .winDataWrite v ∨ c = .winPeekWrite v ∨ c = .registerWrite 0x0B v ∨ c = .registerWrite 0x0C v

/-- What a row does to the images. -/
def RowImages (c : Instr) (s : State) : Prop :=
  ∃ t, exec c s = .next t ∧ (isReset c ∨ EachImage Image.Publishes s t ∨ (IsWindowWrite c ∧ EachImage Image.Stages s t))

theorem rowImages_event {f : State → State} (h : exec c s = .next (s.event f)) (k : EachImage Image.Publishes s (f s)) :
    RowImages c s := ⟨_, h, .inr (.inl (event_eachImage .refl k))⟩

/-- An event that has no part in the images. -/
theorem rowImages_quietEvent {f : State → State} (h : exec c s = .next (s.event f)) (k : (f s).images = s.images) : RowImages c s :=
  rowImages_event h (eachImage_publishes_of_same (congrArg _ k))

/-- An access that has no part in the images. -/
theorem rowImages_access {f : State → State} (h : exec c s = .next (s.access f)) (k : ∀ u, (f u).images = u.images) : RowImages c s :=
  ⟨_, h, .inr (.inl (access_eachImage .refl fun u => eachImage_publishes_of_same (congrArg _ (k u))))⟩

theorem rowImages_command {code : Byte} {command : State → Except CmdStatus State}
    (h : exec c s = .next (commandAccess code command s)) (k : PublishesOnly command) : RowImages c s :=
  ⟨_, h, .inr (.inl (commandAccess_publishes code k))⟩

theorem rowImages_windowWrite {f : State → State} (h : exec c s = .next (s.access f)) (hc : IsWindowWrite c)
    (k : ∀ u, EachImage Image.Stages u (f u)) : RowImages c s := ⟨_, h, .inr (.inr ⟨hc, access_eachImage .refl k⟩)⟩

/-- A row that is the access its own name describes, beside the traffic of the lines. -/
theorem rowImages_wellFormed (c : Instr) (s : State) (h : c.wellFormed = true) (hl : lineOf c = none) : RowImages c s := by
  cases c with
  | cycleStart => exact rowImages_command rfl startCycles_publishesOnly
  | cycleStop => exact rowImages_command rfl stopCycles_imagesFree.publishesOnly
  | cycleSingle => exact rowImages_command rfl singleCycle_publishesOnly
  | changeover | abortChangeover | copyActive => exact rowImages_command rfl (scheduleCommand_imagesFree _).publishesOnly
  | lineEnable => exact rowImages_command rfl (lineCommand_imagesFree enableLine_lineFrame).publishesOnly
  | lineDisable => exact rowImages_command rfl (lineCommand_imagesFree disableLine_lineFrame).publishesOnly
  | park | unpark | clearCounters => exact rowImages_command rfl (stationCommand_imagesFree _).publishesOnly
  | publishImage => exact rowImages_command rfl (imageCommand_publishesOnly fun m x => setAt_publish_publishes x.images m)
  | markImage => exact rowImages_command rfl (imageCommand_publishesOnly fun _ _ _ => .refl _)
  | unmarkAll => exact rowImages_command rfl fun _ _ ht => by cases ht; exact eachImage_publishes_of_same rfl
  | claim => exact rowImages_command rfl (mailboxCommand_imagesFree claimMailbox_imagesFree).publishesOnly
  | release => exact rowImages_command rfl (mailboxCommand_imagesFree releaseMailbox_imagesFree).publishesOnly
  | flush => exact rowImages_command rfl (mailboxCommand_imagesFree flushMailbox_imagesFree).publishesOnly
  | post => exact rowImages_command rfl postRequest_imagesFree.publishesOnly
  | cancel => exact rowImages_command rfl cancelRequest_imagesFree.publishesOnly
  | pop => exact rowImages_command rfl popEvent_imagesFree.publishesOnly
  | softReset | pinReset | powerUp => exact ⟨_, rfl, .inl (by simp [isReset])⟩
  | badCommand code =>
    have hcode : commandOfCode code = none := by simpa [Instr.wellFormed] using h
    have run : exec (.badCommand code) s = badCode code s := by rw [exec, execBadCommand, hcode]
    exact rowImages_command (run.trans rfl) fun _ _ ht => by cases ht
  | cytModeWrite | cytPrescaleWrite | cytWindowWrite | cytPeriodHighWrite =>
    exact rowImages_access rfl fun _ => by unfold settingWrite; dsimp only; split <;> rfl
  | divisorHighWrite => exact rowImages_access rfl fun _ => by dsimp only; split <;> rfl
  | lineSettingWrite | irqStatusWrite => exact rowImages_access rfl fun _ => by split <;> rfl
  | cytPeriodLowWrite | divisorLowWrite | cytValueLowRead | cycleCountLowRead | schChangeoversLowRead | overrunCounterWrite
  | strayCounterWrite | poolMissesWrite | hostStatusWrite | irqEnableWrite => exact rowImages_access rfl fun _ => rfl
  | winDataRead | winPeekRead => exact rowImages_access rfl fun u => windowRead_images _ u
  | winDataWrite v => exact rowImages_windowWrite rfl ⟨v, .inl rfl⟩ fun u => windowWrite_stages _ v u
  | winPeekWrite v => exact rowImages_windowWrite rfl ⟨v, .inr (.inl rfl)⟩ fun u => windowWrite_stages _ v u
  | registerWrite offset v =>
    have hrow : ownRowOfWrite offset v = none := by simpa [Instr.wellFormed] using h
    have run : exec (.registerWrite offset v) s = .next (s.access (plainWrite offset v)) := by rw [exec, execRegisterWrite, hrow]
    exact rowImages_access run (plainWrite_images offset v)
  | resetRelease => exact ⟨_, rfl, .inr (.inl (eachImage_publishes_of_same rfl))⟩
  | tick =>
    refine rowImages_event rfl ?_
    split
    · exact (completeTick_publishes _).after (settle_images s)
    · exact eachImage_publishes_of_same rfl
  | periodEnd | syncWindowExpiry =>
    refine rowImages_event rfl ?_
    split
    · exact (ownBoundary_publishes _).after (settle_images s)
    · exact eachImage_publishes_of_same rfl
  | syncFallingEdge => exact rowImages_event rfl (syncEdge_publishes s)
  | syncSeenHigh => exact rowImages_quietEvent rfl (by unfold syncHigh; split <;> rfl)
  | changeoverCheckEnd => exact rowImages_quietEvent rfl (endCheck_images s)
  | copyComplete => exact rowImages_quietEvent rfl (endCopy_images s)
  | _ => cases hl

/-! ## Rows that spell another row (log 16) -/

/-- No code of CMD gives a window write. -/
theorem not_isWindowWrite_ofCode {code : Byte} (h : commandOfCode code = some c) : ¬ IsWindowWrite c := by
  unfold commandOfCode at h
  split at h <;> cases h <;> simp [IsWindowWrite]

/-- A REGISTER_WRITE that spells a window write is one at offset 0x0B or 0x0C. -/
theorem isWindowWrite_ofOffset {offset : BitVec 6} {v : Byte} (h : ownRowOfWrite offset v = some c) (hc : IsWindowWrite c) :
    IsWindowWrite (.registerWrite offset v) := by
  have code : ¬ IsWindowWrite ((commandOfCode v).getD (.badCommand v)) := by
    cases hv : commandOfCode v with
    | none => simp [IsWindowWrite]
    | some c => exact not_isWindowWrite_ofCode hv
  have rows : (rowsOfWrites v).Forall fun p => IsWindowWrite p.2 → IsWindowWrite (.registerWrite p.1 v) := by
    simpa [rowsOfWrites, IsWindowWrite] using code
  exact List.forall_iff_forall_mem.mp rows _ ((ownRowOfWrite_iff offset v c).mp h) hc

/-- Every row of the table, through the row it spells, which resets or writes into the window only where the row itself does. -/
theorem rowImages (c : Instr) (s : State) : RowImages c s := by
  cases hl : lineOf c with
  | some l =>
    obtain ⟨f, hrun, hframe⟩ := lineRow hl
    exact rowImages_quietEvent (hrun s) (hframe s).1.images
  | none =>
    by_cases hw : c.wellFormed = true
    · exact rowImages_wellFormed c s hw hl
    · have spelled {c' : Instr} (he : exec c s = exec c' s) (hc : c'.wellFormed = true) (hn : lineOf c' = none)
          (hr : isReset c' → isReset c) (hx : IsWindowWrite c' → IsWindowWrite c) : RowImages c s := by
        obtain ⟨t, ht, k⟩ := rowImages_wellFormed c' s hc hn
        exact ⟨t, he.trans ht, k.imp hr (.imp_right (And.imp_left hx))⟩
      cases c <;> simp [Instr.wellFormed] at hw
      case badCommand code =>
        obtain ⟨c', hc⟩ := Option.ne_none_iff_exists'.mp hw
        obtain ⟨wellFormed, resets⟩ := wellFormed_ofCode hc
        exact spelled (exec_badCommand s hc) wellFormed (lineOf_ofCode hc) (fun h => by rw [resets h]; simp [isReset])
          fun h => absurd h (not_isWindowWrite_ofCode hc)
      case registerWrite offset v =>
        obtain ⟨c', hc⟩ := Option.ne_none_iff_exists'.mp hw
        obtain ⟨wellFormed, resets⟩ := wellFormed_ofOffset hc
        refine spelled (exec_registerWrite s hc) wellFormed (lineOf_ofOffset hc) (fun h => ?_) (isWindowWrite_ofOffset hc)
        obtain ⟨rfl, rfl⟩ := resets h
        simp [isReset]

end Rows

/-- Settles O49: a row that is no reset publishes images, or writes staged copies through the window. -/
theorem liveCopyAndGenerationChangeTogether : Obligations.LiveCopyAndGenerationChangeTogether := by
  unfold Obligations.LiveCopyAndGenerationChangeTogether
  intro c s t n ht noReset old new
  obtain ⟨t', ht', images⟩ := rowImages c s
  obtain rfl : t' = t := Host.Outcome.next.inj (ht'.symm.trans ht)
  rcases images with reset | published | ⟨write, staged⟩
  · exact absurd reset noReset
  · exact ⟨(published n).changed, fun changed => absurd (published n).staged changed⟩
  · obtain ⟨live, generation⟩ := (staged n).live
    exact ⟨fun changed => absurd changed (not_or.mpr ⟨not_not.mpr live, not_not.mpr generation⟩), fun _ => ⟨staged n, write⟩⟩

end Sys2Proof.Machine
end

section
/-! What the bounds of the queues speak of, line by line; appends, and the updates that keep the bounds (R129, R130, R143 to R146). -/

namespace Sys2Proof.Machine

/-! ## Appends (R143 to R146) -/

section Appends

variable {q : EventQueue}

theorem satInc_byte_toNat {x : Byte} (h : x.toNat < 255) : (satInc x).toNat = x.toNat + 1 := by
  have below : x ≠ BitVec.allOnes 8 := by
    rintro rfl
    simp at h
  rw [satInc, if_neg below, BitVec.toNat_add_of_lt (by simp; omega)]
  rfl

theorem EventQueue.load_eq (q : EventQueue) : q.load = q.entries.length
    + (if q.reserved.a = true then 1 else 0) + (if q.reserved.b = true then 1 else 0) := by
  have counted (b : Bool) : b.toNat = if b = true then 1 else 0 := by cases b <;> rfl
  rw [EventQueue.load, EventQueue.reservations, counted, counted, Nat.add_assoc]

/-- With room an unreserved append lands; without, nothing but the drop count changes (R146). -/
theorem EventQueue.append_lands_or_drops (q : EventQueue) (e : Event) :
    (q.load < 32 → q.append e = { q with entries := q.entries ++ [e] })
    ∧ (32 ≤ q.load → q.append e = { q with drops := (q.append e).drops }
        ∧ (q.drops.toNat < 255 → (q.append e).drops.toNat = q.drops.toNat + 1)
        ∧ (q.drops = 255 → (q.append e).drops = 255)) := by
  refine ⟨fun room => q.append_room room e, fun full => ?_⟩
  rw [q.append_noRoom full e]
  exact ⟨rfl, satInc_byte_toNat, fun saturated => by rw [saturated]; rfl⟩

/-- A completion's event lands at its place among the unreserved ones, and its line's reservation is filled (R136, R145). -/
theorem EventQueue.load_reservedAmong {l : Line} (h : q.load ≤ 32) (hr : q.reserved.get l = true) (d : Event) (before after : List Event) :
    (after.foldl EventQueue.append ((before.foldl EventQueue.append q).appendReserved l d)).load ≤ 32
    ∧ (after.foldl EventQueue.append ((before.foldl EventQueue.append q).appendReserved l d)).reserved = q.reserved.set l false := by
  obtain ⟨-, reserved, -⟩ := foldl_append_adds before q
  obtain ⟨-, reserved', -⟩ := foldl_append_adds after ((before.foldl EventQueue.append q).appendReserved l d)
  refine ⟨foldl_append_load_le after _ ?_, ?_⟩
  · rw [EventQueue.load_appendReserved (by rw [reserved]; exact hr)]
    exact foldl_append_load_le before q h
  · rw [reserved', EventQueue.appendReserved, reserved]

/-- Lists of one sort put together in either order are a list of that sort. -/
theorem eitherOrder_map {α β : Type} (s : State) (f : α → β) (xs ys : List α) :
    ∃ (zs : List α) (c : Nat), eitherOrder s (xs.map f) (ys.map f) = (zs.map f, s.withChoices c) := by
  unfold eitherOrder
  split
  · exact ⟨ys, s.choices, rfl⟩
  · split
    · exact ⟨xs, s.choices, rfl⟩
    · split
      · exact ⟨xs ++ ys, s.choices + 1, by rw [List.map_append]; rfl⟩
      · exact ⟨ys ++ xs, s.choices + 1, by rw [List.map_append]; rfl⟩

/-- An element put at any place of a list of its own sort. -/
theorem anyPlace_map {α β : Type} (s : State) (f : α → β) (x : α) (ys : List α) :
    ∃ (zs : List α) (c : Nat), anyPlace s (f x) (ys.map f) = (zs.map f, s.withChoices c) := by
  obtain ⟨front, back, c, hcut, -, hplace⟩ := anyPlace_spec s (f x) (ys.map f)
  obtain ⟨before, after, -, rfl, rfl⟩ := List.map_eq_append_iff.mp hcut
  exact ⟨before ++ x :: after, c, by rw [hplace, List.map_append, List.map_cons]⟩

/-- The appends of a boundary are unreserved appends in some order, and take open choices besides (R143, log 5). -/
theorem appendBoundary_plain (own swap overrunA overrunB : List Event) (s : State) :
    ∃ (es : List Event) (c : Nat), appendBoundary own swap overrunA overrunB s = (s.appendAll (es.map Append.plain)).withChoices c := by
  obtain ⟨overruns, c, hoverruns⟩ := eitherOrder_map s Append.plain overrunA overrunB
  unfold appendBoundary
  rw [hoverruns]
  dsimp only
  rw [← List.map_append]
  cases own with
  | nil => exact ⟨swap ++ overruns, c, rfl⟩
  | cons e rest =>
    obtain ⟨all, c', hall⟩ := anyPlace_map (s.withChoices c) Append.plain e (swap ++ overruns)
    dsimp only
    rw [hall]
    exact ⟨all, c', rfl⟩

end Appends

/-! ## The queues of a line (R129, R130, R144) -/

/-- A line's reservation, the descriptor of its request in progress, and its waiting requests. -/
structure LineQueues where
  reserved : Bool
  serving : Option Descriptor
  queue : List Descriptor

/-- A reservation goes with a request in progress, at most 4 requests wait, and each request has passed the checks of POST. -/
structure LineQueues.Bounded (x : LineQueues) : Prop where
  reserved : x.reserved = x.serving.isSome
  room : x.queue.length ≤ 4
  queued : ∀ d ∈ x.queue, d.valid = true
  served : ∀ d ∈ x.serving, d.valid = true

/-- The descriptor of the request in progress. -/
def Engine.serving (e : Engine) : Option Descriptor := e.request.map (·.desc)

theorem Engine.serving_of_none {e : Engine} (h : e.request = none) : e.serving = none := by rw [Engine.serving, h]; rfl

def State.lineQueues (s : State) (l : Line) : LineQueues :=
  { reserved := s.events.reserved.get l, serving := (s.engine l).serving, queue := (s.acyclic.get l).queue }

theorem LineQueues.Bounded.reserved_eq {s : State} {l : Line} (h : (s.lineQueues l).Bounded) :
    s.events.reserved.get l = (s.engine l).serving.isSome := h.reserved

/-- The bounds of the Event Queue and of both lines' queues. -/
structure State.QueuesBounded (s : State) : Prop where
  load : s.events.load ≤ 32
  lines : ∀ l, (s.lineQueues l).Bounded

theorem State.queuesLegal_iff (s : State) : s.QueuesLegal ↔ s.QueuesBounded ∧ ∀ l, (s.engine l).Legal := by
  constructor
  · rintro ⟨load, reserved, room, queued, served, legal⟩
    refine ⟨⟨load, fun l => ⟨?_, room l, queued l, fun d hd => ?_⟩⟩, legal⟩
    · exact (reserved l).trans Option.isSome_map.symm
    · obtain ⟨q, hq, rfl⟩ := Option.map_eq_some_iff.mp hd
      exact served l q hq
  · rintro ⟨⟨load, lines⟩, legal⟩
    refine ⟨load, fun l => ?_, fun l => (lines l).room, fun l => (lines l).queued, fun l q hq => ?_, legal⟩
    · exact (lines l).reserved_eq.trans Option.isSome_map
    · exact (lines l).served q.desc (Option.map_eq_some_iff.mpr ⟨q, hq, rfl⟩)

/-! ## Steps that keep the bounds -/

/-- The step keeps the bounds of the queues. -/
structure QueuesKept (s t : State) : Prop where
  bounded : s.QueuesBounded → t.QueuesBounded

/-- Everything that has a part in the queues. -/
def State.queueHolders (s : State) : Two Engine × EventQueue × List Descriptor × List Descriptor :=
  (s.lines, s.events, s.acyclic.a.queue, s.acyclic.b.queue)

section Relations

variable {s t u : State} {l : Line}

theorem QueuesKept.refl (s : State) : QueuesKept s s := ⟨id⟩

theorem QueuesKept.trans (h : QueuesKept s t) (k : QueuesKept t u) : QueuesKept s u := ⟨k.bounded ∘ h.bounded⟩

theorem QueuesKept.of_same (h : t.queueHolders = s.queueHolders) : QueuesKept s t := by
  simp only [State.queueHolders, Prod.mk.injEq] at h
  obtain ⟨lines, events, queueA, queueB⟩ := h
  have same (l : Line) : t.lineQueues l = s.lineQueues l := by
    rw [State.lineQueues, State.lineQueues, State.engine, State.engine, lines, events]
    cases l
    · exact congrArg (LineQueues.mk _ _) queueA
    · exact congrArg (LineQueues.mk _ _) queueB
  exact ⟨fun k => ⟨by rw [events]; exact k.load, fun l => by rw [same]; exact k.lines l⟩⟩

/-- A line's operation that keeps the bound of the Event Queue and those of its own queues. -/
theorem LineFrame.queuesKept (h : LineFrame l s t) (besides : t.besides l = s.besides l)
    (own : s.events.load ≤ 32 → (s.lineQueues l).Bounded → t.events.load ≤ 32 ∧ (t.lineQueues l).Bounded) : QueuesKept s t where
  bounded k := by
    obtain ⟨load, bounded⟩ := own k.load (k.lines l)
    refine ⟨load, fun m => ?_⟩
    by_cases hm : m = l
    · subst hm
      exact bounded
    · obtain rfl : m = otherLine l := by cases m <;> cases l <;> first | rfl | exact absurd rfl hm
      have same : t.lineQueues (otherLine l) = s.lineQueues (otherLine l) := by
        have reserved : t.events.reserved.get (otherLine l) = s.events.reserved.get (otherLine l) := congrArg Besides.reserved besides
        rw [State.lineQueues, State.lineQueues, h.engine _ hm, h.acyclic _ hm, reserved]
      rw [same]
      exact k.lines _

/-- An engine that serves the request it served, beside updates that have no part in the queues. -/
theorem setEngine_queuesKept {e : Engine} (ht : t.queueHolders = s.queueHolders) (he : e.serving = (s.engine l).serving) :
    QueuesKept s (t.setEngine l e) := by
  have before : QueuesKept s t := .of_same ht
  have lines : t.lines = s.lines := congrArg Prod.fst ht
  refine before.trans ((setEngine_lineFrame l t e).queuesKept rfl fun load own => ⟨load, ?_⟩)
  rw [State.lineQueues, State.setEngine_same, he, State.engine, ← lines]
  exact own

/-- A queue in which the reservations stand and the bound holds. -/
theorem withEvents_queuesKept {q : EventQueue} (load : s.events.load ≤ 32 → q.load ≤ 32) (reserved : q.reserved = s.events.reserved) :
    QueuesKept s (s.withEvents q) := by
  refine ⟨fun k => ⟨load k.load, fun l => ?_⟩⟩
  have same : (s.withEvents q).lineQueues l = s.lineQueues l := by
    rw [State.lineQueues, State.withEvents_events, reserved]
    rfl
  rw [same]
  exact k.lines l

/-- Unreserved appends, with room or without (R144, R146). -/
theorem appendPlain_queuesKept (es : List Event) : QueuesKept s (s.appendAll (es.map .plain)) := by
  obtain ⟨-, reserved, -⟩ := foldl_append_adds es s.events
  rw [State.appendAll, foldl_apply_plain]
  exact withEvents_queuesKept (foldl_append_load_le es s.events) reserved

theorem appendEvent_queuesKept (e : Event) : QueuesKept s (s.appendEvent e) := appendPlain_queuesKept [e]

theorem appendBoundary_queuesKept (own swap overrunA overrunB : List Event) :
    QueuesKept s (appendBoundary own swap overrunA overrunB s) := by
  obtain ⟨es, c, appended⟩ := appendBoundary_plain own swap overrunA overrunB s
  rw [appended]
  exact (appendPlain_queuesKept es).trans (.of_same rfl)

end Relations

end Sys2Proof.Machine
end

section
/-! What a line's operations do with the queues: a completion fills the reservation of its request, a request that starts is granted one, and
every other operation of the line makes unreserved appends at most (R131, R133, R136, R143 to R145). -/

namespace Sys2Proof.Machine

/-! ## Ends (R136, R140) -/

section Ends

variable {s : State} {l : Line}

/-- A completion appends to the queue of a state in which its buffer and its station's record have been seen to. -/
theorem completeRequest_completed {q : Request} (hq : (s.engine l).request = some q) (o : Outcome) (a : Option Attempt) :
    ∃ (d : Event) (es : List Event) (v : State), completeRequest l o a s = leaveRequest l (completed l d es v)
      ∧ v.events = s.events ∧ v.acyclic = s.acyclic := by
  have settled : (settledBuffer l q o a s).events = s.events ∧ (settledBuffer l q o a s).acyclic = s.acyclic := by
    unfold settledBuffer
    split
    · unfold writeHeader
      split <;> exact ⟨rfl, rfl⟩
    · exact ⟨rfl, rfl⟩
  by_cases silent : o = .notReady ∨ o = .aborted
  · have run : completeRequest l o a s = leaveRequest l (completed l (completion s l q o a) [] (settledBuffer l q o a s)) := by
      simp only [completeRequest, hq, if_pos silent]
      rfl
    exact ⟨_, _, _, run, settled⟩
  · refine ⟨_, _, _, completeRequest_reports hq silent, ?_⟩
    unfold applyReport
    split <;> exact settled

/-- The completion of a request fills its reservation (R136, R145). -/
theorem completeRequest_queuesKept (o : Outcome) (a : Option Attempt) : QueuesKept s (completeRequest l o a s) := by
  cases hq : (s.engine l).request with
  | none =>
    rw [completeRequest, hq]
    exact .refl s
  | some q =>
    refine (completeRequest_lineFrame l o a s).queuesKept (completeRequest_besides s l o a) fun load own => ?_
    have holds : s.events.reserved.get l = true := by
      rw [own.reserved_eq, Engine.serving, hq]
      rfl
    have idle : ((completeRequest l o a s).engine l).serving = none := by
      rw [completeRequest_engine o a hq]
      rfl
    obtain ⟨d, es, v, run, events, acyclic⟩ := completeRequest_completed hq o a
    obtain ⟨front, back, c, hcut, -, hplace⟩ := anyPlace_spec v (Append.reserved l d) (es.map Append.plain)
    obtain ⟨before, after, -, rfl, rfl⟩ := List.map_eq_append_iff.mp hcut
    have appended : (completeRequest l o a s).events =
        after.foldl EventQueue.append ((before.foldl EventQueue.append s.events).appendReserved l d) := by
      rw [run, ← events, leaveRequest, State.setEngine_events, completed, hplace, State.appendAll, List.foldl_append, List.foldl_cons,
        ← foldl_apply_plain, ← foldl_apply_plain]
      rfl
    have waiting : (completeRequest l o a s).acyclic = s.acyclic := by
      rw [run, ← acyclic, leaveRequest, State.setEngine_acyclic, completed, hplace]
      rfl
    obtain ⟨bound, reserved⟩ := EventQueue.load_reservedAmong load holds d before after
    refine ⟨by rw [appended]; exact bound, ?_⟩
    rw [State.lineQueues, idle, waiting, appended, reserved, Two.get_set_same]
    exact ⟨rfl, own.room, own.queued, nofun⟩

theorem beginAttempt_queuesKept : QueuesKept s (beginAttempt l s) := by
  have sends (e : Engine) (x : Exchange) (seqBit : Bool) : (e.transmit x seqBit).serving = e.serving := by
    unfold Engine.serving Engine.transmit Engine.countAttempt
    cases e.request <;> rfl
  unfold beginAttempt
  split
  · exact .refl s
  · exact setEngine_queuesKept rfl (sends ..)

theorem takeBuffer_queuesKept (w : TakeFor) : QueuesKept s (takeBuffer l w s) := by
  unfold takeBuffer
  split
  · exact setEngine_queuesKept rfl rfl
  · extract_lets p missed
    have counted : QueuesKept s missed := .of_same rfl
    split
    · exact counted
    · exact counted.trans (appendEvent_queuesKept _)

theorem leaveSlot_queuesKept (o : Outcome) : QueuesKept s (leaveSlot l o s) := by
  unfold leaveSlot
  split
  · exact .refl s
  · exact setEngine_queuesKept rfl rfl

theorem returnHeld_queuesKept : QueuesKept s (returnHeld l s) := setEngine_queuesKept rfl rfl

theorem publishHeld_queuesKept (c : Slot) (a : Attempt) : QueuesKept s (publishHeld l c a s) := by
  unfold publishHeld
  split
  · next b m _ _ =>
    have written : QueuesKept s (writeHeader l b a c.entry.label s) := by
      unfold writeHeader
      split <;> exact .of_same rfl
    have published (u : State) : QueuesKept u (publishInto m b u) := .of_same rfl
    exact (written.trans (published _)).trans (setEngine_queuesKept rfl rfl)
  · exact returnHeld_queuesKept

theorem reportSlot_queuesKept (address : Byte) (p : Report) : QueuesKept s (reportSlot l address p s) := by
  have reported : QueuesKept s (applyReport l address p s).1 := by
    unfold applyReport
    split <;> exact .of_same rfl
  exact reported.trans (appendPlain_queuesKept _)

theorem finishSlot_queuesKept (o : Outcome) (a : Option Attempt) : QueuesKept s (finishSlot l o a s) := by
  unfold finishSlot
  split
  · exact .refl s
  · extract_lets s1 s2
    have settled : QueuesKept s s1 := by
      unfold s1
      split
      · exact publishHeld_queuesKept ..
      · exact returnHeld_queuesKept
    have reported : QueuesKept s1 s2 := by
      unfold s2
      split
      · exact .refl s1
      · exact reportSlot_queuesKept ..
    exact settled.trans (reported.trans (leaveSlot_queuesKept o))

theorem endAttempt_queuesKept (o : Outcome) : QueuesKept s (endAttempt l o s) := by
  unfold endAttempt
  split
  · exact .refl s
  · extract_lets s1 ended e s2
    have counted : QueuesKept s s1 := by
      unfold s1
      split
      · exact .refl s
      · unfold reportAttempt
        split <;> exact .of_same rfl
    have stopped : QueuesKept s s2 := counted.trans (setEngine_queuesKept rfl rfl)
    split
    · split
      · exact stopped.trans (completeRequest_queuesKept ..)
      · exact stopped.trans (finishSlot_queuesKept ..)
    · exact stopped

theorem tearDown_queuesKept : QueuesKept s (tearDown l s) :=
  (completeRequest_queuesKept .aborted none).trans (returnHeld_queuesKept.trans (leaveSlot_queuesKept .aborted))

/-- No request is left in progress (R140). -/
theorem tearDown_request (l : Line) (s : State) : ((tearDown l s).engine l).request = none := by
  obtain ⟨_, ended, -⟩ := returnHeld_completeRequest l s
  obtain ⟨_, _, _, left⟩ := leaveSlot_only l .aborted (returnHeld l (completeRequest l .aborted none s))
  rw [tearDown, left, State.setEngine_same, ended, State.setEngine_same]

end Ends

/-! ## The walk (R61 to R67, R72, R73) -/

section Walk

variable {s : State} {l : Line}

theorem readNext_queuesKept : QueuesKept s (readNext l s) := by
  obtain ⟨x, only, -⟩ := readNext_only l s
  rw [only]
  exact setEngine_queuesKept rfl rfl

theorem sendSlot_queuesKept (c : Slot) : QueuesKept s (sendSlot l c s) := by
  have snapshot : QueuesKept s (takeSnapshot l c s) := by
    unfold takeSnapshot
    split
    · exact setEngine_queuesKept rfl rfl
    · exact .refl s
  have taken (u : State) : QueuesKept u (takeForSlot l c u) := by
    unfold takeForSlot
    split
    · exact takeBuffer_queuesKept _
    · exact .refl u
  exact (snapshot.trans (taken _)).trans beginAttempt_queuesKept

theorem startStation_queuesKept (c : Slot) : QueuesKept s (startStation l c s) := by
  unfold startStation
  split
  · exact sendSlot_queuesKept c
  · extract_lets read s1 c' e
    have counted : QueuesKept s s1 := .of_same rfl
    split
    · exact counted.trans (leaveSlot_queuesKept _)
    · exact counted.trans (sendSlot_queuesKept c)
    · have substituted : QueuesKept s1 (s1.setEngine l { s1.engine l with slot := some c' }) := setEngine_queuesKept rfl rfl
      exact counted.trans (substituted.trans (sendSlot_queuesKept c'))

theorem beginSlot_queuesKept (n : Notice) (r : ReadEntry) : QueuesKept s (beginSlot l n r s) := by
  have begun : QueuesKept s (entered s l n r) := setEngine_queuesKept rfl rfl
  rw [beginSlot_eq]
  split
  · exact begun.trans (leaveSlot_queuesKept _)
  · split
    · exact begun
    · split
      · exact begun.trans (sendSlot_queuesKept _)
      · exact begun.trans (startStation_queuesKept _)

theorem walkOn_queuesKept (k : Nat) : ∀ s : State, QueuesKept s (walkOn l k s) := by
  induction k with
  | zero => exact .refl
  | succ k ih =>
    intro s
    unfold walkOn
    dsimp only
    split
    · split
      · exact readNext_queuesKept.trans ((beginSlot_queuesKept _ _).trans (ih _))
      · exact readNext_queuesKept
    · exact readNext_queuesKept

theorem slotBegin_queuesKept : QueuesKept s (slotBegin l s) := by
  unfold slotBegin
  dsimp only
  split
  · exact walkOn_queuesKept _ s
  · exact .refl s

theorem openSlotEnd_queuesKept : QueuesKept s (openSlotEnd l s) := by
  unfold openSlotEnd
  split
  · exact (leaveSlot_queuesKept _).trans readNext_queuesKept
  · exact .refl s

theorem afterGap_queuesKept : QueuesKept s (afterGap l s) := by
  unfold afterGap
  split
  · split
    · exact (leaveSlot_queuesKept _).trans slotBegin_queuesKept
    · exact setEngine_queuesKept rfl rfl
  · exact slotBegin_queuesKept

theorem retryDecision_queuesKept (o : Outcome) : QueuesKept s (retryDecision l o s) := by
  unfold retryDecision
  split
  · exact beginAttempt_queuesKept
  · split
    · exact (completeRequest_queuesKept o none).trans afterGap_queuesKept
    · exact (finishSlot_queuesKept o none).trans slotBegin_queuesKept

theorem frameGapEnd_queuesKept : QueuesKept s (frameGapEnd l s) := by
  unfold frameGapEnd
  dsimp only
  split
  · have back : QueuesKept s (s.setEngine l { s.engine l with state := .wait, failed := none }) := setEngine_queuesKept rfl rfl
    refine back.trans ?_
    split
    · exact retryDecision_queuesKept _
    · exact afterGap_queuesKept
  · exact .refl s

/-- The head of the queue may start in WAIT within an OPEN slot with no request in progress, with time for it and room for its completion
(R131). -/
theorem startable_iff {d : Descriptor} {c : Slot} : startable l s = some (d, c) ↔
    (s.engine l).slot = some c ∧ (∃ rest, (s.acyclic.get l).queue = d :: rest) ∧ (s.engine l).state = .wait ∧ c.isOpen = true
      ∧ (s.engine l).request = none ∧ d.reservation.toNat ≤ timeRemaining s c ∧ s.events.load < 32 := by
  have room : s.events.hasRoom = true ↔ s.events.load < 32 := decide_eq_true_iff
  unfold startable
  dsimp only
  constructor
  · intro h
    split at h
    · next c' d' rest slot queue =>
      split at h
      · next starts =>
        obtain ⟨rfl, rfl⟩ := Prod.mk.inj (Option.some.inj h)
        rw [room] at starts
        exact ⟨slot, ⟨rest, queue⟩, starts⟩
      · cases h
    · cases h
  · rintro ⟨slot, ⟨rest, queue⟩, starts⟩
    rw [← room] at starts
    simp only [slot, queue, if_pos starts]

/-- The head of the queue becomes the request in progress, and a reservation is granted to its line (R133, R144). -/
theorem startHead_queuesKept {d : Descriptor} {c : Slot} (h : startable l s = some (d, c)) : QueuesKept s (startHead l d c s) := by
  obtain ⟨-, ⟨rest, head⟩, -, -, idle, -, room⟩ := startable_iff.mp h
  refine (startHead_lineFrame l d c s).queuesKept (startHead_besides s l d c) fun _ own => ?_
  have queue : (s.lineQueues l).queue = d :: rest := head
  have unreserved : s.events.reserved.get l = false := by
    rw [own.reserved_eq, Engine.serving_of_none idle]
    rfl
  have begun : (startHead l d c s).lineQueues l = { reserved := true, serving := some d, queue := rest } := by
    simp [State.lineQueues, startHead, State.setAcyclic, EventQueue.reserve, Engine.serving, head]
  have length := own.room
  have queued := own.queued
  rw [queue] at length queued
  refine ⟨?_, ?_⟩
  · have reserved := EventQueue.load_reserve unreserved
    show (s.events.reserve l).load ≤ 32
    omega
  · rw [begun]
    refine ⟨rfl, Nat.le_of_succ_le length, fun x hx => queued x (.tail _ hx), fun x hx => ?_⟩
    obtain rfl : d = x := Option.some.inj hx
    exact queued d (.head _)

theorem startAcyclic_queuesKept : QueuesKept s (startAcyclic l s) := by
  unfold startAcyclic
  split
  · exact .refl s
  · next d c hd =>
    have started := startHead_queuesKept hd
    have taken (q : Request) (u : State) : QueuesKept u (takeForRequest l q u) := by
      unfold takeForRequest
      split
      · exact .refl u
      · exact takeBuffer_queuesKept _
    dsimp only
    split
    · exact started.trans ((taken _ _).trans beginAttempt_queuesKept)
    · exact started.trans (completeRequest_queuesKept .notReady none)

theorem takeNotice_queuesKept (n : Option Notice) : QueuesKept s (takeNotice l n s) := by
  have squeezed : QueuesKept s (squeezeUnbegun l s) := by
    unfold squeezeUnbegun
    split <;> exact .of_same rfl
  have noticed (u : State) : QueuesKept u (u.setEngine l ((u.engine l).takeNotice n)) := setEngine_queuesKept rfl rfl
  unfold takeNotice
  split
  · exact .refl s
  · dsimp only
    refine ((squeezed.trans (noticed _)).trans ?_).trans readNext_queuesKept
    split
    · exact leaveSlot_queuesKept _
    · exact .refl _

/-- An OFF line has no request in progress, and none once it is enabled (R57). -/
theorem enableLine_queuesKept {t : State} (h : (s.engine l).Legal) (ht : enableLine l s = .ok t) : QueuesKept s t := by
  unfold enableLine at ht
  split at ht
  · next off =>
    obtain rfl := Except.ok.inj ht
    obtain ⟨⟨-, -, -, -, -, -, request, -⟩, -⟩ := h.of_off off
    exact setEngine_queuesKept rfl (Engine.serving_of_none request).symm
  · cases ht

theorem disableLine_queuesKept {t : State} (ht : disableLine l s = .ok t) : QueuesKept s t := by
  have emptied {e : Engine} (he : e.serving = none) : QueuesKept s ((tearDown l s).setEngine l e) :=
    tearDown_queuesKept.trans (setEngine_queuesKept rfl (he.trans (Engine.serving_of_none (tearDown_request l s)).symm))
  unfold disableLine at ht
  dsimp only at ht
  split at ht
  · cases ht
  · split at ht
    · obtain rfl := Except.ok.inj ht
      exact .refl s
    · split at ht
      · obtain rfl := Except.ok.inj ht
        exact emptied rfl
      · obtain rfl := Except.ok.inj ht
        exact emptied rfl

end Walk

/-! ## Traffic (R8 to R13, R68 to R72) -/

section Traffic

variable {s : State} {l : Line}

/-- A line that finishes the character of a LINE_DISABLE has no request in progress (R80). -/
theorem characterSent_queuesKept (h : (s.engine l).Legal) : QueuesKept s (characterSent l s) := by
  unfold characterSent
  dsimp only
  split
  · exact .refl s
  · split
    · next disabling =>
      obtain ⟨⟨-, -, -, -, -, -, request, -⟩, -⟩ := h.of_disabling disabling
      exact setEngine_queuesKept rfl (Engine.serving_of_none request).symm
    · split
      · exact .refl s
      · split
        · exact endAttempt_queuesKept _
        · split
          · exact setEngine_queuesKept rfl rfl
          · unfold frameSent
            split
            · exact endAttempt_queuesKept _
            · exact setEngine_queuesKept rfl rfl

theorem startEdge_queuesKept : QueuesKept s (startEdge l s) := by
  unfold startEdge
  dsimp only
  split
  · exact .refl s
  · exact setEngine_queuesKept rfl rfl

theorem rxReturned_queuesKept : QueuesKept s (rxReturned l s) := by
  unfold rxReturned
  dsimp only
  split
  · exact .refl s
  · exact setEngine_queuesKept rfl rfl

theorem falseStart_queuesKept : QueuesKept s (falseStart l s) := by
  unfold falseStart
  dsimp only
  split
  · exact .refl s
  · have dropped (rx : Receiver) : QueuesKept s (s.setEngine l { s.engine l with rx := rx }) := setEngine_queuesKept rfl rfl
    split
    · split
      · exact (dropped _).trans (endAttempt_queuesKept _)
      · exact dropped _
    · exact dropped _

theorem windowExpiry_queuesKept : QueuesKept s (windowExpiry l s) := by
  unfold windowExpiry
  dsimp only
  split
  · split
    · exact setEngine_queuesKept rfl rfl
    · exact endAttempt_queuesKept _
  · exact .refl s

theorem charGapExpiry_queuesKept : QueuesKept s (charGapExpiry l s) := by
  unfold charGapExpiry
  dsimp only
  split
  · split
    · exact .refl s
    · exact setEngine_queuesKept rfl rfl
  · exact .refl s

theorem endQuiet_queuesKept : QueuesKept s (endQuiet l s) := by
  unfold endQuiet
  dsimp only
  split
  · exact endAttempt_queuesKept _
  · exact .refl s

theorem applyJudgement_queuesKept (a : Attempt) (j : Judgement) : QueuesKept s (applyJudgement l a j s) := by
  have stored (u : State) (store : Option (Nat × Byte)) : QueuesKept u (storePayload l store u) := by
    unfold storePayload
    split <;> exact .of_same rfl
  unfold applyJudgement
  split
  · exact (setEngine_queuesKept rfl (by rfl)).trans (stored _ _)
  · exact setEngine_queuesKept rfl rfl
  · exact (setEngine_queuesKept rfl (by rfl)).trans (endAttempt_queuesKept _)

theorem handleCharacter_queuesKept (p : RxProgress) (c : RxChar) : QueuesKept s (handleCharacter l p c s) := by
  have stray : QueuesKept s (countStray l s) := setEngine_queuesKept rfl rfl
  unfold handleCharacter
  split
  · exact stray
  · exact stray
  · unfold echoCharacter
    split
    · exact setEngine_queuesKept rfl rfl
    · exact .refl s
  · unfold awaitCharacter
    split
    · unfold headFound
      extract_lets t
      have arrived : QueuesKept s t := setEngine_queuesKept rfl rfl
      split
      · exact arrived.trans (applyJudgement_queuesKept ..)
      · exact arrived
    · split
      · exact stray.trans (endAttempt_queuesKept _)
      · exact stray
  · unfold replyCharacter
    split
    · exact applyJudgement_queuesKept ..
    · exact .refl s
  · exact .refl s

theorem completeCharacter_queuesKept (c : RxChar) : QueuesKept s (completeCharacter l c s) := by
  unfold completeCharacter
  split
  · exact .refl s
  · have received (rx : Receiver) : QueuesKept s (s.setEngine l { s.engine l with rx := rx, idle := 0 }) :=
      setEngine_queuesKept rfl rfl
    exact (received _).trans (handleCharacter_queuesKept ..)

end Traffic

end Sys2Proof.Machine
end

section
/-! What boundaries, the blocks beside the lines and the commands of the host do with the queues: POST and CANCEL change the waiting
requests of a line, POP frees a place, and all else appends without a reservation at most (R129, R138, R143, R148). -/

namespace Sys2Proof.Machine

section Blocks

variable {s : State}

/-! ## Boundaries (R22, R23, R52) -/

theorem noticeBoth_queuesKept (n : Option Notice) (s : State) : QueuesKept s (noticeBoth n s) :=
  (takeNotice_queuesKept n).trans (takeNotice_queuesKept n)

theorem cycleBegin_queuesKept {own : Option EventKind} {u : State} (h : QueuesKept s u) : QueuesKept s (cycleBegin own u) := by
  unfold cycleBegin
  extract_lets t sch n s1
  have counted : QueuesKept u s1 := .of_same rfl
  exact h.trans (counted.trans ((noticeBoth_queuesKept (some n) s1).trans (appendBoundary_queuesKept ..)))

theorem stopBoundary_queuesKept (s : State) : QueuesKept s (stopBoundary s) := by
  have stopped : QueuesKept s (s.withTimer s.timer.stopped) := .of_same rfl
  exact stopped.trans ((noticeBoth_queuesKept none _).trans (appendBoundary_queuesKept ..))

theorem endCycle_queuesKept (sync : SyncState) (own : Option EventKind) (s : State) : QueuesKept s (endCycle sync own s) := by
  unfold endCycle
  split
  · exact cycleBegin_queuesKept (.of_same rfl)
  · exact stopBoundary_queuesKept s
  · exact stopBoundary_queuesKept s
  · exact .refl s

theorem ownBoundary_queuesKept (s : State) : QueuesKept s (ownBoundary s) := by
  unfold ownBoundary
  split <;> exact endCycle_queuesKept _ _ s

theorem completeTick_queuesKept (s : State) : QueuesKept s (completeTick s) := by
  unfold completeTick
  split
  · split
    · exact ownBoundary_queuesKept s
    · exact .of_same rfl
  · exact .refl s

theorem syncEdge_queuesKept (s : State) : QueuesKept s (syncEdge s) := by
  unfold syncEdge
  extract_lets t s1
  have seen : QueuesKept s s1 := .of_same rfl
  split
  · split
    · exact seen
    · split
      · exact seen
      · exact cycleBegin_queuesKept (.of_same rfl)
      · split
        · exact seen.trans (endCycle_queuesKept ..)
        · exact .of_same rfl
      · exact seen.trans (endCycle_queuesKept ..)
  · exact .refl s

/-! ## What a moment owes (log 8) -/

theorem settleLine_queuesKept (l : Line) (s : State) : QueuesKept s (settleLine l s) :=
  openSlotEnd_queuesKept.trans (slotBegin_queuesKept.trans (startAcyclic_queuesKept.trans
    (startAcyclic_queuesKept.trans (startAcyclic_queuesKept.trans startAcyclic_queuesKept))))

theorem settle_queuesKept (s : State) : QueuesKept s (settle s) := by
  have drawn : QueuesKept s s.drawn := .of_same rfl
  have both (l m : Line) (u : State) : QueuesKept u (settleLine m (settleLine l u)) :=
    (settleLine_queuesKept l u).trans (settleLine_queuesKept m _)
  unfold settle
  dsimp only
  split
  · split
    · split
      · exact drawn.trans (both .a .b _)
      · exact drawn.trans (both .b .a _)
    · exact settleLine_queuesKept .a s
  · split
    · exact settleLine_queuesKept .b s
    · exact .refl s

theorem settleMoment_queuesKept (s : State) : QueuesKept s (settleMoment s) := by
  have claimed (l : Line) (t : State) : QueuesKept t (claimEdge l s t) := by
    rcases claimEdge_cases l s t with h | ⟨-, -, h⟩
    · rw [h]; exact .refl t
    · rw [h]; exact setEngine_queuesKept rfl rfl
  exact (settle_queuesKept s).trans ((claimed .a _).trans (claimed .b _))

/-! ## The Schedule Store and the Host Port -/

theorem endCheck_queuesKept (s : State) : QueuesKept s (endCheck s) := by
  unfold endCheck
  split
  · split
    · exact .of_same rfl
    · exact QueuesKept.trans (.of_same (by rfl)) (appendEvent_queuesKept _)
  · exact .refl s

theorem endCopy_queuesKept (s : State) : QueuesKept s (endCopy s) := by
  unfold endCopy
  split
  · exact QueuesKept.trans (.of_same (by rfl)) (appendEvent_queuesKept _)
  · exact .refl s

theorem checkMoves_queuesKept (n : Nat) : ∀ s, QueuesKept s (checkMoves n s) := by
  have move (s : State) : QueuesKept s (checkMove s) := by
    rcases checkMove_cases (s := s) with h | h | ⟨p, h⟩
    · rw [h]; exact .refl s
    · rw [h]; exact endCheck_queuesKept s
    · rw [h]; exact .of_same rfl
  induction n with
  | zero => exact .refl
  | succ n ih => exact fun s => (move s).trans (ih _)

theorem storeAct_queuesKept (s : State) : QueuesKept s (storeAct s) := by
  have drawn : QueuesKept s s.drawn := .of_same rfl
  unfold storeAct
  dsimp only
  split
  · split
    · exact drawn.trans (endCheck_queuesKept _)
    · exact drawn.trans (checkMoves_queuesKept ..)
  · split
    · split
      · exact drawn.trans (endCopy_queuesKept _)
      · split
        · exact drawn.trans (endCopy_queuesKept _)
        · exact drawn
    · exact .refl s

theorem windowRead_queueHolders (w : WinTarget) (s : State) : (windowRead w s).2.queueHolders = s.queueHolders := by
  obtain ⟨latch, winError, schedule, choices, -, only, -⟩ := windowRead_only w s
  rw [only]
  rfl

/-- A write to a staging descriptor leaves the requests that wait as they are (R128). -/
theorem windowWrite_queueHolders (w : WinTarget) (v : Byte) (s : State) : (windowWrite w v s).queueHolders = s.queueHolders := by
  have pending (f : Bank → Bank) : (writePending f s).queueHolders = s.queueHolders := by
    unfold writePending
    split <;> rfl
  cases w with
  | pendingEntry | pendingCount => exact pending _
  | staging l k => cases l <;> rfl
  | _ => rfl

theorem plainWrite_queueHolders (offset : BitVec 6) (v : Byte) (s : State) : (plainWrite offset v s).queueHolders = s.queueHolders := by
  unfold plainWrite
  split <;> rfl

end Blocks

/-! ## Commands -/

/-- A taken command keeps the bounds of the queues. -/
def KeepsQueues (command : State → Except CmdStatus State) : Prop := ∀ s t, command s = .ok t → QueuesKept s t

theorem startCycles_keepsQueues : KeepsQueues startCycles := by
  intro s t h
  unfold startCycles at h
  split at h <;> cases h
  · exact cycleBegin_queuesKept (.of_same rfl)
  · exact .of_same rfl
  · exact .of_same rfl

theorem stopCycles_keepsQueues : KeepsQueues stopCycles := by
  intro s t h
  unfold stopCycles at h
  split at h
  · split at h <;> cases h <;> exact .of_same rfl
  · cases h; exact .of_same rfl
  · cases h; exact .refl _
  · cases h

theorem singleCycle_keepsQueues : KeepsQueues singleCycle := by
  intro s t h
  unfold singleCycle at h
  split at h <;> cases h
  exact cycleBegin_queuesKept (.of_same rfl)

theorem scheduleCommand_keepsQueues (f : Schedule → Except CmdStatus Schedule) : KeepsQueues (scheduleCommand f) := by
  intro s t h
  unfold scheduleCommand at h
  split at h <;> cases h
  exact .of_same rfl

theorem stationCommand_keepsQueues (f : Station → Except CmdStatus Station) : KeepsQueues (stationCommand f) := by
  intro s t h
  unfold stationCommand at h
  split at h
  · split at h <;> cases h
    exact .of_same rfl
  · cases h

theorem imageCommand_keepsQueues (f : Fin 64 → ImageStore → ImageStore) : KeepsQueues (imageCommand f) := by
  intro s t h
  unfold imageCommand at h
  split at h <;> cases h
  exact .of_same rfl

theorem mailboxCommand_keepsQueues {f : Fin 48 → Mailbox → State → Except CmdStatus State} (h : ∀ i m, KeepsQueues (f i m)) :
    KeepsQueues (mailboxCommand f) := by
  intro s t ht
  unfold mailboxCommand at ht
  split at ht
  · exact h _ _ s t ht
  · cases ht

theorem claimMailbox_keepsQueues (i : Fin 48) (m : Mailbox) : KeepsQueues (claimMailbox i m) := by
  intro s t h
  unfold claimMailbox at h
  split at h <;> cases h
  exact .of_same rfl

theorem releaseMailbox_keepsQueues (i : Fin 48) (m : Mailbox) : KeepsQueues (releaseMailbox i m) := by
  intro s t h
  unfold releaseMailbox at h
  split at h <;> cases h <;> exact .of_same rfl

theorem flushMailbox_keepsQueues (i : Fin 48) (m : Mailbox) : KeepsQueues (flushMailbox i m) := by
  intro s t h
  cases h
  exact .of_same rfl

/-- Other requests wait on a line: at most 4, each of which has passed the checks of POST. -/
theorem setQueue_queuesKept {s : State} {l : Line} {queue : List Descriptor}
    (h : (s.lineQueues l).Bounded → queue.length ≤ 4 ∧ ∀ d ∈ queue, d.valid = true) :
    QueuesKept s (s.setAcyclic l { s.acyclic.get l with queue := queue }) := by
  refine (setAcyclic_lineFrame l s _).queuesKept (by cases l <;> rfl) fun load own => ⟨load, ?_⟩
  obtain ⟨room, queued⟩ := h own
  have written : (s.setAcyclic l { s.acyclic.get l with queue := queue }).lineQueues l = { s.lineQueues l with queue := queue } := by
    simp [State.lineQueues, State.setAcyclic]
  rw [written]
  exact ⟨own.reserved, room, queued, own.served⟩

/-- POST adds a request that has passed its checks where fewer than 4 wait (R129, R130). -/
theorem postRequest_keepsQueues : KeepsQueues postRequest := by
  intro s t h
  unfold postRequest at h
  dsimp only at h
  split at h
  · cases h
  · next l _ =>
    split at h
    · cases h
    · next room =>
      split at h <;> cases h
      next passes =>
      refine setQueue_queuesKept fun own => ⟨?_, fun d hd => ?_⟩
      · rw [List.length_append]
        exact Nat.lt_of_not_le room
      · rcases List.mem_append.mp hd with queued | posted
        · exact own.queued d queued
        · rw [List.mem_singleton.mp posted]
          simpa using passes

/-- CANCEL takes a request from the queue (R138). -/
theorem cancelRequest_keepsQueues : KeepsQueues cancelRequest := by
  intro s t h
  unfold cancelRequest at h
  dsimp only at h
  split at h
  · cases h
  · split at h
    · cases h
      exact setQueue_queuesKept fun own => ⟨List.length_eraseP_le.trans own.room, fun d hd => own.queued d (List.mem_of_mem_eraseP hd)⟩
    · split at h <;> cases h

/-- POP frees a place, which an OVERFLOW may take (R148). -/
theorem popEvent_keepsQueues : KeepsQueues popEvent := by
  intro s t h
  unfold popEvent at h
  split at h <;> cases h
  next e rest head =>
  have popped : QueuesKept s (s.withEvents (s.events.afterPop rest s.timer.cycleCount)) :=
    withEvents_queuesKept (fun load => (EventQueue.load_afterPop head _).trans load) (EventQueue.afterPop_reserved ..)
  exact popped.trans (.of_same rfl)

end Sys2Proof.Machine
end

section
/-! Every row of the table, and every period of the clock, keeps the bounds of the Event Queue, its reservations and the acyclic queues
(R129, R130, R143 to R146). -/

namespace Sys2Proof.Machine

/-! ## Steps between legal states -/

/-- The step keeps the bounds of the queues if it starts with legal engines. -/
def QueuesStay (s t : State) : Prop := (∀ l, (s.engine l).Legal) → QueuesKept s t

section Steps

variable {s t u : State}

theorem QueuesKept.stay (h : QueuesKept s t) : QueuesStay s t := fun _ => h

theorem QueuesStay.trans (h : QueuesStay s t) (engines : EnginesKept s t) (k : QueuesStay t u) : QueuesStay s u :=
  fun legal => (h legal).trans (k (engines legal))

/-! ## Accesses, events and commands -/

theorem access_queuesStay {f : State → State} (h : ∀ u, QueuesStay u (f u)) : QueuesStay s (s.access f) := by
  have quiet : QueuesKept s (s.withHost { s.host with data := none }) := .of_same rfl
  unfold State.access
  split
  · exact (QueuesKept.refl s).stay
  · exact quiet.stay.trans (.of_lines rfl) (h _)

theorem event_queuesStay {f : State → State} (h : QueuesStay s (f s)) : QueuesStay s (s.event f) := by
  unfold State.event
  split
  · exact (QueuesKept.refl s).stay
  · exact h

theorem commandAccess_queuesStay {command : State → Except CmdStatus State} (code : Byte)
    (h : ∀ u t, command u = .ok t → QueuesStay u t) : QueuesStay s (commandAccess code command s) :=
  access_queuesStay fun u legal => by
    have answered (v : State) (x : HostPort) : QueuesKept v (v.withHost x) := .of_same rfl
    unfold State.give
    split
    · next t ht => exact (h u t ht legal).trans (answered t _)
    · exact answered u _

theorem lineCommand_queuesStay {f : Line → State → Except CmdStatus State}
    (h : ∀ l s t, (s.engine l).Legal → f l s = .ok t → QueuesKept s t) (s t : State) (ht : lineCommand f s = .ok t) :
    QueuesStay s t := by
  unfold lineCommand at ht
  split at ht
  · exact fun legal => h _ s t (legal _) ht
  · cases ht

/-- A reset empties every queue (R153). -/
theorem reset_queuesKept (h : t.queueHolders = State.reset.queueHolders) : QueuesKept s t :=
  ⟨fun _ => (QueuesKept.of_same h).bounded (State.reset.queuesLegal_iff.mp State.reset_queuesLegal).1⟩

/-! ## Every row -/

/-- A row of the table keeps the bounds of the queues. -/
def RowKeepsQueues (c : Instr) (s : State) : Prop := ∃ t, exec c s = .next t ∧ QueuesStay s t

theorem rowKeepsQueues_access {c : Instr} {f : State → State} (h : exec c s = .next (s.access f)) (k : ∀ u, QueuesKept u (f u)) :
    RowKeepsQueues c s := ⟨_, h, access_queuesStay fun u => (k u).stay⟩

/-- An access that has no part in the queues. -/
theorem rowKeepsQueues_free {c : Instr} {f : State → State} (h : exec c s = .next (s.access f))
    (k : ∀ u, (f u).queueHolders = u.queueHolders) : RowKeepsQueues c s := rowKeepsQueues_access h fun u => .of_same (k u)

theorem rowKeepsQueues_event {c : Instr} {f : State → State} (h : exec c s = .next (s.event f)) (k : QueuesKept s (f s)) :
    RowKeepsQueues c s := ⟨_, h, event_queuesStay k.stay⟩

theorem rowKeepsQueues_command {c : Instr} {code : Byte} {command : State → Except CmdStatus State}
    (h : exec c s = .next (commandAccess code command s)) (k : KeepsQueues command) : RowKeepsQueues c s :=
  ⟨_, h, commandAccess_queuesStay code fun u t ht => (k u t ht).stay⟩

theorem rowKeepsQueues_lineCommand {c : Instr} {code : Byte} {f : Line → State → Except CmdStatus State}
    (h : exec c s = .next (commandAccess code (lineCommand f) s))
    (k : ∀ l s t, (s.engine l).Legal → f l s = .ok t → QueuesKept s t) : RowKeepsQueues c s :=
  ⟨_, h, commandAccess_queuesStay code (lineCommand_queuesStay k)⟩

/-- A row of a line's traffic. -/
theorem rowKeepsQueues_line {c : Instr} {l : Line} (hl : lineOf c = some l) (s : State) : RowKeepsQueues c s := by
  cases c <;> cases hl
  case slotBegin => exact rowKeepsQueues_event rfl slotBegin_queuesKept
  case characterTransmitted => exact ⟨_, rfl, event_queuesStay fun legal => characterSent_queuesKept (legal l)⟩
  case receivedCharacter => exact rowKeepsQueues_event rfl (startEdge_queuesKept.trans (completeCharacter_queuesKept _))
  case falseStart => exact rowKeepsQueues_event rfl falseStart_queuesKept
  case replyWindowExpiry => exact rowKeepsQueues_event rfl windowExpiry_queuesKept
  case characterGapExpiry => exact rowKeepsQueues_event rfl charGapExpiry_queuesKept
  case quietIdleExpiry =>
    refine rowKeepsQueues_event rfl ?_
    split
    · exact .refl s
    · exact endQuiet_queuesKept
  case quietLimitExpiry => exact rowKeepsQueues_event rfl endQuiet_queuesKept
  case frameGapEnd => exact rowKeepsQueues_event rfl frameGapEnd_queuesKept
  case openSlotEnd => exact rowKeepsQueues_event rfl openSlotEnd_queuesKept
  case acyclicStart => exact rowKeepsQueues_event rfl startAcyclic_queuesKept
  case startEdge => exact rowKeepsQueues_event rfl startEdge_queuesKept
  case rxReturnedTo1 => exact rowKeepsQueues_event rfl rxReturned_queuesKept

/-- A row that is the access its own name describes, beside the traffic of the lines. -/
theorem rowKeepsQueues_wellFormed (c : Instr) (s : State) (h : c.wellFormed = true) (hl : lineOf c = none) : RowKeepsQueues c s := by
  cases c with
  | cycleStart => exact rowKeepsQueues_command rfl startCycles_keepsQueues
  | cycleStop => exact rowKeepsQueues_command rfl stopCycles_keepsQueues
  | cycleSingle => exact rowKeepsQueues_command rfl singleCycle_keepsQueues
  | changeover | abortChangeover | copyActive => exact rowKeepsQueues_command rfl (scheduleCommand_keepsQueues _)
  | lineEnable => exact rowKeepsQueues_lineCommand rfl fun _ _ _ => enableLine_queuesKept
  | lineDisable => exact rowKeepsQueues_lineCommand rfl fun _ _ _ _ => disableLine_queuesKept
  | park | unpark | clearCounters => exact rowKeepsQueues_command rfl (stationCommand_keepsQueues _)
  | publishImage | markImage => exact rowKeepsQueues_command rfl (imageCommand_keepsQueues _)
  | unmarkAll => exact rowKeepsQueues_command rfl fun _ _ ht => by cases ht; exact .of_same rfl
  | claim => exact rowKeepsQueues_command rfl (mailboxCommand_keepsQueues claimMailbox_keepsQueues)
  | release => exact rowKeepsQueues_command rfl (mailboxCommand_keepsQueues releaseMailbox_keepsQueues)
  | flush => exact rowKeepsQueues_command rfl (mailboxCommand_keepsQueues flushMailbox_keepsQueues)
  | post => exact rowKeepsQueues_command rfl postRequest_keepsQueues
  | cancel => exact rowKeepsQueues_command rfl cancelRequest_keepsQueues
  | pop => exact rowKeepsQueues_command rfl popEvent_keepsQueues
  | softReset => exact rowKeepsQueues_command rfl fun _ _ ht => by cases ht; exact reset_queuesKept rfl
  | badCommand code =>
    have hcode : commandOfCode code = none := by simpa [Instr.wellFormed] using h
    have run : exec (.badCommand code) s = badCode code s := by rw [exec, execBadCommand, hcode]
    exact rowKeepsQueues_command (run.trans rfl) fun _ _ ht => by cases ht
  | cytModeWrite | cytPrescaleWrite | cytWindowWrite | cytPeriodHighWrite =>
    exact rowKeepsQueues_free rfl fun _ => by unfold settingWrite; dsimp only; split <;> rfl
  | divisorLowWrite | overrunCounterWrite | strayCounterWrite =>
    exact rowKeepsQueues_access rfl fun _ => setEngine_queuesKept rfl rfl
  | divisorHighWrite =>
    exact rowKeepsQueues_access rfl fun u => by
      dsimp only
      split
      · exact setEngine_queuesKept rfl rfl
      · exact .of_same rfl
  | lineSettingWrite l which v =>
    exact rowKeepsQueues_access rfl fun u => by
      split
      · exact setEngine_queuesKept rfl (by cases which <;> rfl)
      · exact .of_same rfl
  | irqStatusWrite => exact rowKeepsQueues_free rfl fun _ => by split <;> rfl
  | cytPeriodLowWrite | cytValueLowRead | cycleCountLowRead | schChangeoversLowRead | poolMissesWrite | hostStatusWrite
  | irqEnableWrite => exact rowKeepsQueues_free rfl fun _ => rfl
  | winDataRead | winPeekRead => exact rowKeepsQueues_free rfl fun u => windowRead_queueHolders _ u
  | winDataWrite v | winPeekWrite v => exact rowKeepsQueues_free rfl fun u => windowWrite_queueHolders _ v u
  | registerWrite offset v =>
    have hrow : ownRowOfWrite offset v = none := by simpa [Instr.wellFormed] using h
    have run : exec (.registerWrite offset v) s = .next (s.access (plainWrite offset v)) := by rw [exec, execRegisterWrite, hrow]
    exact rowKeepsQueues_free run (plainWrite_queueHolders offset v)
  | pinReset | powerUp => exact ⟨_, rfl, fun _ => reset_queuesKept rfl⟩
  | resetRelease => exact ⟨_, rfl, QueuesKept.stay (.of_same rfl)⟩
  | tick =>
    refine rowKeepsQueues_event rfl ?_
    split
    · exact (settle_queuesKept s).trans (completeTick_queuesKept _)
    · exact .refl s
  | periodEnd | syncWindowExpiry =>
    refine rowKeepsQueues_event rfl ?_
    split
    · exact (settle_queuesKept s).trans (ownBoundary_queuesKept _)
    · exact .refl s
  | syncFallingEdge => exact rowKeepsQueues_event rfl (syncEdge_queuesKept s)
  | syncSeenHigh =>
    refine rowKeepsQueues_event rfl ?_
    unfold syncHigh
    split <;> exact .of_same rfl
  | changeoverCheckEnd => exact rowKeepsQueues_event rfl (endCheck_queuesKept s)
  | copyComplete => exact rowKeepsQueues_event rfl (endCopy_queuesKept s)
  | _ => cases hl

/-- Every row of the table, through the row it spells (log 16). -/
theorem rowKeepsQueues (c : Instr) (s : State) : RowKeepsQueues c s := by
  cases hl : lineOf c with
  | some l => exact rowKeepsQueues_line hl s
  | none =>
    by_cases hw : c.wellFormed = true
    · exact rowKeepsQueues_wellFormed c s hw hl
    · have spelled {c' : Instr} (he : exec c s = exec c' s) (hc : c'.wellFormed = true) (hn : lineOf c' = none) : RowKeepsQueues c s := by
        obtain ⟨t, ht, stay⟩ := rowKeepsQueues_wellFormed c' s hc hn
        exact ⟨t, he.trans ht, stay⟩
      cases c <;> simp [Instr.wellFormed] at hw
      case badCommand code =>
        obtain ⟨c', hc⟩ := Option.ne_none_iff_exists'.mp hw
        exact spelled (exec_badCommand s hc) (wellFormed_ofCode hc).1 (lineOf_ofCode hc)
      case registerWrite offset v =>
        obtain ⟨c', hc⟩ := Option.ne_none_iff_exists'.mp hw
        exact spelled (exec_registerWrite s hc) (wellFormed_ofOffset hc).1 (lineOf_ofOffset hc)

/-! ## Every period -/

section Sample

variable {l : Line} {level : Bool}

theorem sampleCharacter_queuesKept (p : RxProgress) : QueuesKept s (sampleCharacter l level p s) := by
  have noted (rx : Receiver) : QueuesKept s (s.setEngine l { s.engine l with rx := rx }) := setEngine_queuesKept rfl rfl
  by_cases hdecides : (p.count + 1) % 16 = 10
  · by_cases hstart : p.count + 1 = 10 ∧ majority (votesAfter level p) = true
    · rw [sampleCharacter_falseStart hstart.1 hstart.2]; exact falseStart_queuesKept
    · by_cases hlast : p.count + 1 = 170
      · rw [sampleCharacter_complete hlast]; exact completeCharacter_queuesKept _
      · rw [sampleCharacter_bit hdecides hstart hlast]; exact noted _
  · rw [sampleCharacter_vote hdecides]; exact noted _

theorem sampleAt_queuesKept : QueuesKept s (sampleAt l level s) := by
  have remembered (u : State) : QueuesKept u (rememberSample l level u) := by
    by_cases hs : (u.engine l).state = .off
    · rw [rememberSample_off hs]; exact .refl u
    · rw [rememberSample_seen hs]; exact setEngine_queuesKept rfl rfl
  unfold sampleAt
  refine QueuesKept.trans ?_ (remembered _)
  split
  · exact sampleCharacter_queuesKept _
  · split
    · exact startEdge_queuesKept
    · exact .refl s

theorem lineMoment_queuesKept (h : (s.engine l).Legal) : QueuesKept s (lineMoment l s) := by
  unfold lineMoment
  dsimp only
  split
  · split
    · exact characterSent_queuesKept h
    · exact .refl s
  · split
    · exact windowExpiry_queuesKept
    · exact .refl s
  · split
    · exact charGapExpiry_queuesKept
    · exact .refl s
  · split
    · exact endQuiet_queuesKept
    · split
      · exact endQuiet_queuesKept
      · exact .refl s
  · split
    · exact frameGapEnd_queuesKept
    · exact .refl s
  · exact .refl s
  · exact .refl s

theorem lineSample_queuesKept : QueuesKept s (lineSample l s) := by
  rcases Nat.lt_or_ge (s.engine l).sampleClock ((s.engine l).divisor.toNat + 1) with h | h
  · rw [lineSample_notDue h]; exact .refl s
  · rw [lineSample_due h]
    have restarted : QueuesKept s (s.setEngine l { s.engine l with sampleClock := 0 }) := setEngine_queuesKept rfl rfl
    have pin : QueuesKept s (s.sampled l (s.nextPin l)) := restarted.trans (.of_same rfl)
    exact pin.trans sampleAt_queuesKept

end Sample

theorem lineAct_queuesStay (l : Line) (s : State) : QueuesStay s (lineAct l s) := by
  have moment (u : State) : QueuesStay u (lineMoment l u) := fun legal => lineMoment_queuesKept (legal l)
  have sampled (u : State) : QueuesStay u (lineMoment l (lineMoment l (lineSample l u))) :=
    lineSample_queuesKept.stay.trans (lineSample_enginesKept l u) ((moment _).trans (lineMoment_enginesKept l _) (moment _))
  unfold lineAct
  dsimp only
  split
  · exact (moment s).trans (lineMoment_enginesKept l s) (sampled _)
  · exact sampled s

/-- Each actor of a period. -/
theorem Actor.act_queuesStay (a : Actor) (s : State) : QueuesStay s (a.act s) := by
  unfold Actor.act
  split
  · cases a with
    | timer => exact (completeTick_queuesKept s).stay
    | sync => exact (syncEdge_queuesKept s).stay
    | line l => exact lineAct_queuesStay l s
    | store => exact (storeAct_queuesKept s).stay
  · exact (QueuesKept.refl s).stay

theorem actors_queuesStay (actors : List Actor) : ∀ s, QueuesStay s (actors.foldl (fun u a => a.act u) s) := by
  induction actors with
  | nil => exact fun s => (QueuesKept.refl s).stay
  | cons a actors ih => exact fun s => (a.act_queuesStay s).trans (a.act_enginesKept s) (ih _)

theorem countAll_queuesKept (s : State) : QueuesKept s (countAll s) := by
  have timer : QueuesKept s (countTimer s) := by rw [countTimer_eq_later]; exact .of_same rfl
  have counted (l : Line) (u : State) : QueuesKept u (u.setEngine l (u.engine l).countPeriod) := setEngine_queuesKept rfl rfl
  unfold countAll
  extract_lets s1 s2
  have both : QueuesKept s1 s2 := (counted .a s1).trans (counted .b _)
  exact timer.trans (both.trans (.of_same rfl))

theorem clockPeriod_queuesStay (s : State) : QueuesStay s (clockPeriod s) := by
  unfold clockPeriod
  split
  · exact (QueuesKept.refl s).stay
  · obtain ⟨n, -, hdue, -⟩ := dueActors_cases (countAll (settleMoment s))
    have counted : QueuesKept (settleMoment s) (dueActors (countAll (settleMoment s))).2 := by
      rw [hdue]
      exact (countAll_queuesKept _).trans (.of_same rfl)
    have engines : EnginesKept (settleMoment s) (dueActors (countAll (settleMoment s))).2 := by
      rw [hdue]
      exact (countAll_enginesKept _).trans (.of_lines rfl)
    exact (settleMoment_queuesKept s).stay.trans (settleMoment_enginesKept s) (counted.stay.trans engines (actors_queuesStay _ _))

/-- A command that waits is a row, and without one a period of the clock passes. -/
theorem step_queuesStay (h : step s = .next t) : QueuesStay s t := by
  cases hp : s.pending with
  | nil =>
    simp only [step, hp] at h
    cases h
    exact clockPeriod_queuesStay s
  | cons c rest =>
    simp only [step, hp] at h
    have taken : QueuesKept s { s with pending := rest } := .of_same rfl
    obtain ⟨t', ht', stay⟩ := rowKeepsQueues c { s with pending := rest }
    obtain rfl : t' = t := Host.Outcome.next.inj (ht'.symm.trans h)
    exact taken.stay.trans (.of_lines rfl) stay

end Steps

/-- Settles O48: every step keeps the bounds and the legal engines; the load counts entries and reservations; each append by its rule. -/
theorem queuesStayInBounds : Obligations.QueuesStayInBounds := by
  unfold Obligations.QueuesStayInBounds
  refine ⟨fun s t legal ht => ?_, EventQueue.load_eq, fun q e => ⟨rfl, fun l => rfl⟩, EventQueue.append_lands_or_drops⟩
  obtain ⟨bounded, engines⟩ := s.queuesLegal_iff.mp legal
  exact t.queuesLegal_iff.mpr ⟨(step_queuesStay ht engines).bounded bounded, enginesStayLegal s t engines ht⟩

end Sys2Proof.Machine
end

section
/-! POST and CANCEL: the first refusal that applies, or the whole descriptor at the tail; the oldest match taken from the queue (R129,
R138). -/

namespace Sys2Proof.Machine

/-! ## The checks of POST (R129) -/

/-- Item 3 of R129 in the model's words and in those of the obligations. -/
theorem Descriptor.valid_iff (d : Descriptor) : d.valid = true ↔ d.Passes := by
  have ranged (v : Byte) : ¬ (v = 0 ∨ 63 < v.toNat) ↔ 1 ≤ v.toNat ∧ v.toNat ≤ 63 := by bv_omega
  have window (v : Half) : v ≠ 0 ∧ v.toNat ≤ 1023 ↔ 1 ≤ v.toNat ∧ v.toNat ≤ 1023 := by bv_omega
  have flag (v : Byte) : v.toNat ≤ 1 ↔ v = 0 ∨ v = 1 := by bv_omega
  have bare : isBare d.kind = true ↔ d.kind = 1 ∨ d.kind = 4 ∨ d.kind = 5 := by
    simp [isBare, kindRead, kindStatus, kindResync, or_assoc]
  have kinds : kindBroadcast = 6 := rfl
  unfold Descriptor.valid Descriptor.Passes
  rw [← ranged, ← window, ← flag, ← bare, kinds]
  simp only [Bool.and_eq_true, Bool.or_eq_true, Bool.not_eq_true', ← Bool.not_eq_true, beq_iff_eq, bne_iff_ne, decide_eq_true_iff, ne_eq,
    or_assoc, and_assoc]

/-! ## POST (R129) -/

section Commands

variable {s : State} {l : Line}

theorem postRequest_noLine (h : lineArg s.host.arg0 = none) : postRequest s = .error .badArgument := by
  simp only [postRequest, h]

theorem postRequest_full (hl : lineArg s.host.arg0 = some l) (full : 4 ≤ (s.acyclic.get l).queue.length) :
    postRequest s = .error .full := by
  simp only [postRequest, hl]
  exact if_pos full

theorem postRequest_fails (hl : lineArg s.host.arg0 = some l) (room : (s.acyclic.get l).queue.length < 4)
    (fails : ¬ (s.acyclic.get l).staging.Passes) : postRequest s = .error .badArgument := by
  have refused : (!(s.acyclic.get l).staging.valid) = true := by simpa [← Descriptor.valid_iff] using fails
  simp only [postRequest, hl]
  exact (if_neg (Nat.not_le_of_lt room)).trans (if_pos refused)

theorem postRequest_taken (hl : lineArg s.host.arg0 = some l) (room : (s.acyclic.get l).queue.length < 4)
    (passes : (s.acyclic.get l).staging.Passes) : postRequest s =
      .ok (s.setAcyclic l { s.acyclic.get l with queue := (s.acyclic.get l).queue ++ [(s.acyclic.get l).staging] }) := by
  have taken : ¬ (!(s.acyclic.get l).staging.valid) = true := by simpa [← Descriptor.valid_iff] using passes
  simp only [postRequest, hl]
  exact (if_neg (Nat.not_le_of_lt room)).trans (if_neg taken)

/-! ## CANCEL (R138) -/

theorem cancelRequest_noLine (h : lineArg s.host.arg0 = none) : cancelRequest s = .error .badArgument := by
  simp only [cancelRequest, h]

/-- The oldest match leaves the queue, and no other request moves. -/
theorem cancelRequest_oldest {before behind : List Descriptor} {d : Descriptor} (hl : lineArg s.host.arg0 = some l)
    (queue : (s.acyclic.get l).queue = before ++ d :: behind) (tag : d.tag = s.host.arg1) (older : ∀ x ∈ before, x.tag ≠ s.host.arg1) :
    cancelRequest s = .ok (s.setAcyclic l { s.acyclic.get l with queue := before ++ behind }) := by
  have found : ((s.acyclic.get l).queue.any (·.tag == s.host.arg1)) = true := by
    rw [queue]
    exact List.any_eq_true.mpr ⟨d, by simp, by simp [tag]⟩
  have removed : (s.acyclic.get l).queue.eraseP (·.tag == s.host.arg1) = before ++ behind := by
    rw [queue, List.eraseP_append_right _ (by simpa using older), List.eraseP_cons_of_pos (by simp [tag])]
  simp only [cancelRequest, hl, if_pos found, removed]

theorem cancelRequest_unqueued (hl : lineArg s.host.arg0 = some l) (unqueued : ∀ x ∈ (s.acyclic.get l).queue, x.tag ≠ s.host.arg1) :
    cancelRequest s =
      .error (if (s.engine l).request.any (fun r => r.desc.tag == s.host.arg1) = true then .tooLate else .notFound) := by
  have missing : ¬ ((s.acyclic.get l).queue.any (·.tag == s.host.arg1)) = true := by simpa using unqueued
  simp only [cancelRequest, hl, if_neg missing]
  split <;> rfl

end Commands

/-- Settles O50: each answer of the command, given with the data lines released. -/
theorem postAndCancelFollowTheirOrder : Obligations.PostAndCancelFollowTheirOrder := by
  unfold Obligations.PostAndCancelFollowTheirOrder
  intro s hr
  have refused {code : Byte} {command : State → Except CmdStatus State} {answer : CmdStatus}
      (h : command (s.withHost { s.host with data := none }) = .error answer) :=
    congrArg (Host.Outcome.next (φ := Fault) (ρ := Refusal)) (commandAccess_error (code := code) hr h)
  have taken {code : Byte} {command : State → Except CmdStatus State} {t : State}
      (h : command (s.withHost { s.host with data := none }) = .ok t) :=
    congrArg (Host.Outcome.next (φ := Fault) (ρ := Refusal)) (commandAccess_ok (code := code) hr h)
  refine ⟨fun hl => ⟨refused (postRequest_noLine hl), refused (cancelRequest_noLine hl)⟩, fun l hl => ?_⟩
  exact ⟨fun full => refused (postRequest_full hl full), fun room fails => refused (postRequest_fails hl room fails),
    fun room passes => taken (postRequest_taken hl room passes),
    fun before d behind queue tag older => taken (cancelRequest_oldest hl queue tag older),
    fun unqueued => refused (cancelRequest_unqueued hl unqueued)⟩

end Sys2Proof.Machine
end

section
/-! ACYCLIC_START: the head of the queue is sent or completes NOT_READY, or nothing starts (R131, R133 to R135). -/

namespace Sys2Proof.Machine

section Start

variable {s : State} {l : Line} {d : Descriptor} {c : Slot} {rest : List Descriptor}

/-! ## Whether the head starts, and whether it is sent (R131, R134) -/

theorem exec_acyclicStart (hr : s.inReset = false) (l : Line) : exec (.acyclicStart l) s = .next (startAcyclic l s) := by
  rw [← State.event_run hr (startAcyclic l)]; rfl

/-- A line on which no request can start is left as it is. -/
theorem startAcyclic_stays (h : ∀ d c, startable l s ≠ some (d, c)) : startAcyclic l s = s := by
  have none : startable l s = none := Option.eq_none_iff_forall_ne_some.mpr fun ⟨d, c⟩ => h d c
  rw [startAcyclic, none]

/-- The table of R134 in the model's words and in those of the obligations. -/
theorem requestEligible_iff (s : State) (l : Line) (d : Descriptor) : requestEligible l d s = true ↔ Sendable s l d := by
  have bare : isBare d.kind = true ↔ d.kind = kindRead ∨ d.kind = kindStatus ∨ d.kind = kindResync := by
    simp [isBare, or_assoc]
  unfold requestEligible Sendable
  cases stationIx d.station with
  | none => simp
  | some i =>
    simp only [Option.some.injEq, forall_eq', ← bare]
    cases (s.station l i).health <;> simp [eligible]

/-! ## The head taken up (R133) -/

/-- The request that a descriptor becomes in an OPEN slot, before its first attempt. -/
def Slot.takesUp (c : Slot) (d : Descriptor) : Request := { desc := d, cycle := c.cycle, index := c.index, attempts := 0 }

/-- The head has left its queue and holds its line's reservation. -/
theorem startHead_eq (queue : (s.acyclic.get l).queue = d :: rest) : startHead l d c s =
    ((s.withEvents { s.events with reserved := s.events.reserved.set l true }).setAcyclic l
      { s.acyclic.get l with queue := rest }).setEngine l { s.engine l with request := some (c.takesUp d) } := by
  simp only [startHead, State.withEvents_acyclic, queue, List.tail_cons]
  rfl

theorem startHead_engine (l : Line) (d : Descriptor) (c : Slot) (s : State) :
    (startHead l d c s).engine l = { s.engine l with request := some (c.takesUp d) } := State.setEngine_same ..

/-! ## The head is sent (R135) -/

theorem takeForRequest_only (l : Line) (q : Request) (s : State) : ∃ b p events,
    takeForRequest l q s = ((s.withPool p).withEvents events).setEngine l { s.engine l with held := b } := by
  unfold takeForRequest
  split
  · exact ⟨(s.engine l).held, s.pool, s.events, (State.setEngine_self rfl).symm⟩
  · exact takeBuffer_only l _ s

theorem takeForRequest_takes (q : Request) (hh : (s.engine l).held = none) :
    TakesBuffer s l (q.desc.kind != kindBroadcast) { station := q.desc.station, cycle := q.cycle, index := 255, tag := q.desc.tag }
      (takeForRequest l q s) := by
  unfold takeForRequest
  split
  · next hk => rw [hk]; exact takesBuffer_unneeded _ hh
  · next hk => rw [bne_iff_ne.mpr hk]; exact takeBuffer_takes _ hh

/-- What sending the first attempt of a request makes of a state in which it has been taken up (R135). -/
structure RequestSent (s : State) (l : Line) (q : Request) (t : State) : Prop where
  sends : (s.engine l).Sends (t.engine l) q.desc.station q.desc.kind
    (if q.desc.kind = kindWrite ∨ q.desc.kind = kindResync then 0 else q.desc.replyLength) q.desc.replyWindow
    (isSequenced q.desc.kind && (stationIx q.desc.station).any fun i => (s.station l i).s)
    (q.desc.payload.toList.take q.desc.requestLength.toNat)
  request : (t.engine l).request = some { q with attempts := q.attempts + 1 }
  slot : (t.engine l).slot = (s.engine l).slot
  snapshot : (t.engine l).snapshot = (s.engine l).snapshot
  next : (t.engine l).next = (s.engine l).next
  walk : (t.engine l).walk = (s.engine l).walk
  buffer : TakesBuffer s l (q.desc.kind != kindBroadcast)
    { station := q.desc.station, cycle := q.cycle, index := 255, tag := q.desc.tag } t
  other : t.engine (otherLine l) = s.engine (otherLine l)
  frame : t = { s with lines := t.lines, pool := t.pool, events := t.events }

theorem beginAttempt_requestSent {q : Request} (hq : (s.engine l).request = some q) (hh : (s.engine l).held = none) :
    RequestSent s l q (beginAttempt l (takeForRequest l q s)) := by
  have takes := takeForRequest_takes q hh
  obtain ⟨b, p, events, taken⟩ := takeForRequest_only l q s
  generalize takeForRequest l q s = v at taken takes
  have ve : v.engine l = { s.engine l with held := b } := by rw [taken, State.setEngine_same]
  have hq' : (v.engine l).request = some q := by rw [ve]; exact hq
  have sent := beginAttempt_exchange (exchange_of_request hq')
  have sequence : ((stationIx q.exchange.station).any fun i => (v.station l i).s)
      = (stationIx q.desc.station).any fun i => (s.station l i).s := by rw [taken]; rfl
  rw [sequence] at sent
  generalize hseq : (isSequenced q.exchange.kind && (stationIx q.desc.station).any fun i => (s.station l i).s) = seqBit at sent
  have te : (beginAttempt l v).engine l = (v.engine l).transmit q.exchange seqBit := by rw [sent, State.setEngine_same]
  obtain ⟨snapshot, held, -, walk, next⟩ := Engine.transmit_keeps (v.engine l) q.exchange seqBit
  obtain ⟨request, slot⟩ := Engine.transmit_request hq' q.exchange seqBit
  have expected : q.exchange.expected = if q.desc.kind = kindWrite ∨ q.desc.kind = kindResync then 0 else q.desc.replyLength := by
    simp [Request.exchange, requiredLength]
  have sends := (v.engine l).transmit_sends q.exchange seqBit
  rw [← te] at snapshot held walk next request slot sends
  refine ⟨?_, request, slot.trans (by rw [ve]), snapshot.trans (by rw [ve]), next.trans (by rw [ve]), walk.trans (by rw [ve]),
    takes.of_eq rfl rfl held (by rw [sent]; rfl) (by rw [sent]; rfl), ?_, ?_⟩
  · rw [← expected]
    subst hseq
    exact sends.from_parts (by rw [ve]; exact ⟨_, _, _, _, _, _, rfl⟩)
  · rw [sent, State.setEngine_other _ _ (otherLine_ne l), taken]
    exact State.setEngine_other _ _ (otherLine_ne l)
  · rw [sent, taken]
    rfl

/-! ## The head is not ready (R134) -/

/-- A request that is not sent completes at once: its event takes the reservation, and the OPEN slot goes on with the time it has. -/
theorem completeRequest_notReady (queue : (s.acyclic.get l).queue = d :: rest) (hc : (s.engine l).slot = some c)
    (hq : (s.engine l).request = none) (hh : (s.engine l).held = none) (time : 0 < timeRemaining s c) :
    completeRequest l .notReady none (startHead l d c s) = { s.setAcyclic l { s.acyclic.get l with queue := rest } with
      lines := s.lines.set l { s.engine l with slot := some { c with carried := false } }
      events := { s.events with
        entries := s.events.entries ++ [doneEvent l (c.takesUp d) .notReady none none]
        reserved := s.events.reserved.set l false } } := by
  have engine := startHead_engine l d c s
  have silent := completeRequest_silent (q := c.takesUp d) (o := .notReady) (by rw [engine]) (.inl rfl)
  rw [engine, hh, State.giveBuffer_none] at silent
  generalize ht : (startHead l d c s).withEvents ((startHead l d c s).events.appendReserved l
    (doneEvent l (c.takesUp d) .notReady none none)) = t at silent
  have te : t.engine l = { s.engine l with request := some (c.takesUp d) } := by rw [← ht]; exact engine
  have timer : timeRemaining t = timeRemaining s := timeRemaining_timer (by rw [← ht]; rfl)
  have left : leaveRequest l t = t.setEngine l { s.engine l with slot := some { c with carried := false } } := by
    rw [leaveRequest_eq, te, timer]
    simp only [hc, Option.map_some, decide_eq_false (Nat.ne_of_gt time)]
    rw [← hq, ← hh]
  rw [silent, left, ← ht, startHead_eq queue]
  simp only [State.setEngine, State.withLines, State.withEvents, State.setAcyclic_events, EventQueue.appendReserved, Two.set_set]
  rfl

/-! ## ACYCLIC_START -/

/-- A head that may be sent is taken up and sent. -/
theorem startAcyclic_sends (starts : startable l s = some (d, c)) (sendable : Sendable s l d) (hh : (s.engine l).held = none) :
    RequestSent (startHead l d c s) l (c.takesUp d) (startAcyclic l s) := by
  have eligible : requestEligible l d (startHead l d c s) = true := (requestEligible_iff s l d).mpr sendable
  have engine := startHead_engine l d c s
  have run : startAcyclic l s = beginAttempt l (takeForRequest l (c.takesUp d) (startHead l d c s)) := by
    simp only [startAcyclic, starts, eligible, if_true]
    rfl
  rw [run]
  exact beginAttempt_requestSent (by rw [engine]) (by rw [engine]; exact hh)

/-- A head that may not be sent is taken up and completes. -/
theorem startAcyclic_completes (starts : startable l s = some (d, c)) (unsendable : ¬ Sendable s l d) :
    startAcyclic l s = completeRequest l .notReady none (startHead l d c s) := by
  have unmet : ¬ requestEligible l d (startHead l d c s) = true := fun eligible => unsendable ((requestEligible_iff s l d).mp eligible)
  simp only [startAcyclic, starts, if_neg unmet]

end Start

/-- Settles O51: where nothing can start, and the head that is sent or is not ready. -/
theorem acyclicStartSendsOrIsNotReady : Obligations.AcyclicStartSendsOrIsNotReady := by
  unfold Obligations.AcyclicStartSendsOrIsNotReady
  intro s l hr
  rw [exec_acyclicStart hr]
  refine ⟨fun h => congrArg _ (startAcyclic_stays fun d c starts => ?_), fun c d rest legal hs hc ho hq queue room hres =>
    ⟨fun short => congrArg _ (startAcyclic_stays fun d' c' starts => ?_), fun hn fits => ?_⟩⟩
  · obtain ⟨slot, ⟨rest, queue⟩, wait, isOpen, request, -, room⟩ := startable_iff.mp starts
    rcases h with h | h | h | h | h
    · exact h wait
    · simp [slot, isOpen] at h
    · simp [request] at h
    · simp [queue] at h
    · exact Nat.not_le_of_lt room h
  · obtain ⟨slot, ⟨rest', queue'⟩, -, -, -, time, -⟩ := startable_iff.mp starts
    obtain rfl : c = c' := Option.some.inj (hc.symm.trans slot)
    obtain ⟨rfl, -⟩ := List.cons.inj (queue.symm.trans queue')
    exact Nat.not_le_of_lt short time
  · intro granted
    have time : d.reservation.toNat ≤ timeRemaining s c := (le_timeRemaining s c hres).mpr ⟨hn, fits⟩
    have starts : startable l s = some (d, c) := startable_iff.mpr ⟨hc, ⟨rest, queue⟩, hs, ho, hq, time, room⟩
    obtain ⟨held, -⟩ := legal.of_wait hs
    refine ⟨fun sendable => ⟨_, rfl, ?_⟩, fun unsendable => ?_⟩
    · have sent := startAcyclic_sends starts sendable held
      generalize startAcyclic l s = t at sent
      have engine := startHead_engine l d c s
      have sends := sent.sends.from_parts (e0 := s.engine l) (by rw [engine]; exact ⟨_, _, _, _, _, _, rfl⟩)
      refine ⟨sends, sent.request, ?_, ?_, ?_, ?_, sent.buffer.of_eq rfl rfl rfl rfl rfl, sends.sameSettings, ?_, ?_⟩
      · rw [sent.slot, engine]; exact hc
      · rw [sent.snapshot, engine]
      · rw [sent.next, engine]
      · rw [sent.walk, engine]
      · rw [sent.other, startHead_eq queue]
        exact State.setEngine_other _ _ (otherLine_ne l)
      · rw [sent.frame, startHead_eq queue]
        rfl
    · rw [startAcyclic_completes starts unsendable, completeRequest_notReady queue hc hq held (hres.trans time)]
      rfl

end Sys2Proof.Machine
end

section
/-! POP: the head leaves with its buffer, and the place it frees is the room of the OVERFLOW that delivers the drop count (R148). -/

namespace Sys2Proof.Machine

/-! ## The queue after POP -/

/-- While entries and reservations are within the bound, the head's place is room for an OVERFLOW (R144, R148). -/
theorem EventQueue.hasRoom_without_head {q : EventQueue} {e : Event} {rest : List Event} (h : q.entries = e :: rest)
    (bound : q.load ≤ 32) : ({ q with entries := rest } : EventQueue).hasRoom = true := by
  have freed : ({ q with entries := rest } : EventQueue).load + 1 = q.load := by
    simp only [EventQueue.load, EventQueue.reservations, h, List.length_cons]
    omega
  have room : ({ q with entries := rest } : EventQueue).load < Config.queueRoom := by
    rw [Config.queueRoom]
    omega
  exact decide_eq_true room

/-- With room for an OVERFLOW the drop count is always delivered, and it is 0 afterwards (R148). -/
theorem EventQueue.afterPop_eq {q : EventQueue} {rest : List Event}
    (room : ({ q with entries := rest } : EventQueue).hasRoom = true) (cycle : Half) :
    q.afterPop rest cycle = { q with
      entries := if q.drops = 0 then rest
        else rest ++ [{ kind := .overflow, line := none, code := q.drops, cycle := cycle }]
      drops := 0 } := by
  unfold EventQueue.afterPop
  dsimp only
  by_cases undropped : q.drops = 0
  · rw [if_neg fun delivered => delivered.1 undropped, if_pos undropped, ← undropped]
  · rw [if_pos ⟨undropped, room⟩, if_neg undropped]

/-! ## The command -/

theorem popEvent_nil {s : State} (h : s.events.entries = []) : popEvent s = .error .empty := by
  simp only [popEvent, h]

theorem exec_pop (s : State) : exec .pop s = .next (commandAccess 0x60 popEvent s) := rfl

/-- Settles O47: POP of an empty queue is refused; else the freed place decides that a drop count above 0 is delivered. -/
theorem popDeliversTheDropCount : Obligations.PopDeliversTheDropCount := by
  unfold Obligations.PopDeliversTheDropCount
  intro s running
  refine ⟨fun empty => ?_, fun e rest head bound => ?_⟩
  · rw [exec_pop, commandAccess_error running (popEvent_nil empty)]
  · have room := EventQueue.hasRoom_without_head head bound
    rw [exec_pop, commandAccess_ok running (popEvent_cons head), State.giveBuffer_eq, State.withHost_events,
      EventQueue.afterPop_eq room]
    rfl

end Sys2Proof.Machine
end

section
/-! What every row leaves as it was: the queue, the samples to come, the hold in reset and the open choices drawn; and what a command of the
host is answered (R161 to R163, R165; logs 3, 5, 10 and 21). -/

namespace Sys2Proof.Machine

/-! ## What a row does not touch -/

/-- What is not the part's own: the queue (log 21) and the samples to come (log 10) are as they were, the part is held in reset or not as
before (R165), and open choices are only drawn (log 5). -/
structure Surroundings (s t : State) : Prop where
  pending : t.pending = s.pending
  inputs : t.inputs = s.inputs
  inReset : t.inReset = s.inReset
  choices : s.choices ≤ t.choices

/-- What a row that gives no command, writes no argument and resets nothing leaves as it was: the surroundings and the argument bytes;
and it does not set CMD_REFUSED (R161, R162). -/
structure QuietFrame (s t : State) : Prop extends Surroundings s t where
  refused : t.host.cmdRefused = true → s.host.cmdRefused = true
  arg0 : t.host.arg0 = s.host.arg0
  arg1 : t.host.arg1 = s.host.arg1

theorem QuietFrame.refl (s : State) : QuietFrame s s := ⟨⟨rfl, rfl, rfl, le_rfl⟩, id, rfl, rfl⟩

theorem QuietFrame.trans {s t u : State} (h : QuietFrame s t) (k : QuietFrame t u) : QuietFrame s u where
  pending := k.pending.trans h.pending
  inputs := k.inputs.trans h.inputs
  inReset := k.inReset.trans h.inReset
  choices := h.choices.trans k.choices
  refused := h.refused ∘ k.refused
  arg0 := k.arg0.trans h.arg0
  arg1 := k.arg1.trans h.arg1

/-- The fields of the part that a quiet row leaves as they were. -/
def State.quietFields (s : State) : List Instr × Inputs × Bool × Nat × Bool × Byte × Byte :=
  (s.pending, s.inputs, s.inReset, s.choices, s.host.cmdRefused, s.host.arg0, s.host.arg1)

theorem QuietFrame.of_fields {s t : State} (h : t.quietFields = s.quietFields) : QuietFrame s t := by
  simp only [State.quietFields, Prod.mk.injEq] at h
  obtain ⟨pending, inputs, inReset, choices, refused, arg0, arg1⟩ := h
  exact ⟨⟨pending, inputs, inReset, choices.ge⟩, fun set => refused ▸ set, arg0, arg1⟩

/-- A line has no hold on the Host Port. -/
theorem LineFrame.quietFrame {l : Line} {s t : State} (h : LineFrame l s t) : QuietFrame s t where
  pending := h.pending
  inputs := h.inputs
  inReset := h.inReset
  choices := h.choices
  refused set := h.host ▸ set
  arg0 := congrArg _ h.host
  arg1 := congrArg _ h.host

/-! ## Boundaries (R22, R23, R52) -/

theorem noticeBoth_quietFrame (n : Option Notice) (s : State) : QuietFrame s (noticeBoth n s) :=
  (takeNotice_lineFrame .a n s).quietFrame.trans (takeNotice_lineFrame .b n _).quietFrame

theorem appendBoundary_quietFrame (own swap overrunA overrunB : List Event) (s : State) :
    QuietFrame s (appendBoundary own swap overrunA overrunB s) := by
  obtain ⟨_, _, drawn, appended, -⟩ := appendBoundary_adds own swap overrunA overrunB s
  rw [appended]
  exact ⟨⟨rfl, rfl, rfl, drawn⟩, id, rfl, rfl⟩

theorem cycleBegin_quietFrame (own : Option EventKind) (s : State) : QuietFrame s (cycleBegin own s) := by
  unfold cycleBegin
  extract_lets t sch n s1
  have counted : QuietFrame s s1 := .of_fields rfl
  exact counted.trans ((noticeBoth_quietFrame (some n) s1).trans (appendBoundary_quietFrame ..))

theorem stopBoundary_quietFrame (s : State) : QuietFrame s (stopBoundary s) := by
  have stopped : QuietFrame s (s.withTimer s.timer.stopped) := .of_fields rfl
  exact stopped.trans ((noticeBoth_quietFrame none _).trans (appendBoundary_quietFrame ..))

/-- The timer's own fields may be set before a cycle begins. -/
theorem cycleBegin_withTimer_quietFrame (own : Option EventKind) (s : State) (b : Timer) :
    QuietFrame s (cycleBegin own (s.withTimer b)) := by
  have set : QuietFrame s (s.withTimer b) := .of_fields rfl
  exact set.trans (cycleBegin_quietFrame own _)

theorem endCycle_quietFrame (sync : SyncState) (own : Option EventKind) (s : State) : QuietFrame s (endCycle sync own s) := by
  unfold endCycle
  split
  · exact cycleBegin_withTimer_quietFrame ..
  · exact stopBoundary_quietFrame s
  · exact stopBoundary_quietFrame s
  · exact .refl s

theorem ownBoundary_quietFrame (s : State) : QuietFrame s (ownBoundary s) := by
  unfold ownBoundary
  split <;> exact endCycle_quietFrame _ _ s

theorem completeTick_quietFrame (s : State) : QuietFrame s (completeTick s) := by
  unfold completeTick
  split
  · split
    · exact ownBoundary_quietFrame s
    · exact .of_fields rfl
  · exact .refl s

theorem syncEdge_quietFrame (s : State) : QuietFrame s (syncEdge s) := by
  unfold syncEdge
  extract_lets t s1
  have seen : QuietFrame s s1 := .of_fields rfl
  split
  · split
    · exact seen
    · split
      · exact seen
      · exact seen.trans (cycleBegin_withTimer_quietFrame ..)
      · split
        · exact seen.trans (endCycle_quietFrame ..)
        · exact .of_fields rfl
      · exact seen.trans (endCycle_quietFrame ..)
  · exact .refl s

theorem syncHigh_quietFrame (s : State) : QuietFrame s (syncHigh s) := by
  unfold syncHigh
  split <;> exact .of_fields rfl

/-- The steps that a moment owes (log 8). -/
theorem settle_quietFrame (s : State) : QuietFrame s (settle s) := by
  have line (l : Line) (u : State) : QuietFrame u (settleLine l u) := (settleLine_lineFrame l u).quietFrame
  have drawn : QuietFrame s s.drawn := (drawn_lineFrame .a s).quietFrame
  unfold settle
  dsimp only
  split
  · split
    · split
      · exact drawn.trans ((line .a _).trans (line .b _))
      · exact drawn.trans ((line .b _).trans (line .a _))
    · exact line .a s
  · split
    · exact line .b s
    · exact .refl s

/-! ## The Schedule Store's events, the settings and the window -/

theorem endCheck_quietFrame (s : State) : QuietFrame s (endCheck s) := by
  unfold endCheck
  split
  · split <;> exact .of_fields rfl
  · exact .refl s

theorem endCopy_quietFrame (s : State) : QuietFrame s (endCopy s) := by
  unfold endCopy
  split <;> exact .of_fields rfl

theorem settingWrite_quietFrame (taken : Bool) (f : Timer → Timer) (s : State) : QuietFrame s (settingWrite taken f s) := by
  unfold settingWrite
  split <;> exact .of_fields rfl

theorem readAtPointer_quietFrame (s : State) : QuietFrame s (readAtPointer s) := by
  obtain ⟨latch, winError, schedule, choices, drawn, only, -⟩ := windowRead_only (winTarget s.host.ptr) s
  have moved : QuietFrame s (windowRead (winTarget s.host.ptr) s).2 := by
    rw [only]
    exact ⟨⟨rfl, rfl, rfl, drawn⟩, id, rfl, rfl⟩
  exact moved.trans (.of_fields rfl)

theorem windowWrite_quietFrame (w : WinTarget) (v : Byte) (s : State) : QuietFrame s (windowWrite w v s) := by
  have pending (f : Bank → Bank) : QuietFrame s (writePending f s) := by
    unfold writePending
    split <;> exact .of_fields rfl
  cases w with
  | pendingEntry | pendingCount => rw [windowWrite]; exact pending _
  | _ => exact .of_fields rfl

/-- The pointer moves on (R157). -/
theorem QuietFrame.advancePointer {s t : State} (h : QuietFrame s t) : QuietFrame s (advancePointer t) := h.trans (.of_fields rfl)

/-- HOST_STATUS written clears flags and sets none (R161). -/
theorem clearSticky_quietFrame (v : Byte) (s : State) : QuietFrame s (s.withHost (clearSticky s.host v)) :=
  ⟨⟨rfl, rfl, rfl, le_rfl⟩, fun set => (Bool.and_eq_true_iff.mp set).1, rfl, rfl⟩

/-- A plain register's write is the Host Port's own (R155). -/
theorem plainWrite_surroundings (offset : BitVec 6) (v : Byte) (s : State) : Surroundings s (plainWrite offset v s) := by
  unfold plainWrite
  split <;> exact ⟨rfl, rfl, rfl, le_rfl⟩

theorem plainWrite_cmdRefused (offset : BitVec 6) (v : Byte) (s : State) :
    (plainWrite offset v s).host.cmdRefused = s.host.cmdRefused := by
  unfold plainWrite
  split <;> rfl

/-- CMD_ARG0 is at offset 0x06 (section 11.1). -/
theorem plainWrite_arg0 {offset : BitVec 6} (v : Byte) (s : State) (h : offset ≠ 0x06) :
    (plainWrite offset v s).host.arg0 = s.host.arg0 := by
  unfold plainWrite
  split
  · next at6 => exact absurd (BitVec.toNat_eq_nat.mp at6).2 h
  all_goals rfl

/-- CMD_ARG1 is at offset 0x07 (section 11.1). -/
theorem plainWrite_arg1 {offset : BitVec 6} (v : Byte) (s : State) (h : offset ≠ 0x07) :
    (plainWrite offset v s).host.arg1 = s.host.arg1 := by
  unfold plainWrite
  split
  · rfl
  · next at7 => exact absurd (BitVec.toNat_eq_nat.mp at7).2 h
  all_goals rfl

/-! ## Accesses and events (R154, R165) -/

theorem access_surroundings {s : State} {f : State → State} (h : ∀ u, Surroundings u (f u)) : Surroundings s (s.access f) := by
  unfold State.access
  split
  · exact ⟨rfl, rfl, rfl, le_rfl⟩
  · obtain ⟨pending, inputs, inReset, choices⟩ := h (s.withHost { s.host with data := none })
    exact ⟨pending, inputs, inReset, choices⟩

theorem access_quietFrame {s : State} {f : State → State} (h : ∀ u, QuietFrame u (f u)) : QuietFrame s (s.access f) := by
  unfold State.access
  split
  · exact .refl s
  · have quiet : QuietFrame s (s.withHost { s.host with data := none }) := .of_fields rfl
    exact quiet.trans (h _)

theorem event_quietFrame {s : State} {f : State → State} (h : ∀ u, QuietFrame u (f u)) : QuietFrame s (s.event f) := by
  unfold State.event
  split
  · exact .refl s
  · exact h s

/-! ## Answers to commands (R162, R163) -/

/-- A command's answer: it is taken, with an effect of this kind, or it is refused with a status code of its own. -/
inductive Answers (R : α → Prop) : Except CmdStatus α → Prop where
  | taken {x : α} (effect : R x) : Answers R (.ok x)
  | refused {answer : CmdStatus} (ne_none : answer ≠ .none) (ne_accepted : answer ≠ .accepted) : Answers R (.error answer)

/-- A command of the host that is no reset: taken, it is quiet beside the answer it is given. -/
def HostCommand (command : State → Except CmdStatus State) : Prop := ∀ s, Answers (QuietFrame s) (command s)

theorem startCycles_hostCommand : HostCommand startCycles := by
  intro s
  unfold startCycles
  split
  · exact .taken (cycleBegin_withTimer_quietFrame ..)
  · exact .taken (.of_fields rfl)
  · exact .taken (.of_fields rfl)
  · exact .refused nofun nofun
  · exact .refused nofun nofun

theorem stopCycles_hostCommand : HostCommand stopCycles := by
  intro s
  unfold stopCycles
  split
  · split <;> exact .taken (.of_fields rfl)
  · exact .taken (.of_fields rfl)
  · exact .taken (.refl s)
  · exact .refused nofun nofun

theorem singleCycle_hostCommand : HostCommand singleCycle := by
  intro s
  unfold singleCycle
  split
  · exact .taken (cycleBegin_withTimer_quietFrame ..)
  · exact .refused nofun nofun

theorem scheduleCommand_hostCommand {f : Schedule → Except CmdStatus Schedule} (h : ∀ x, Answers (fun _ => True) (f x)) :
    HostCommand (scheduleCommand f) := by
  intro s
  unfold scheduleCommand
  have answer := h s.schedule
  generalize f s.schedule = x at answer ⊢
  cases answer with
  | taken => exact .taken (.of_fields rfl)
  | refused ne_none ne_accepted => exact .refused ne_none ne_accepted

theorem startCheck_answers (x : Schedule) : Answers (fun _ => True) x.startCheck := by
  unfold Schedule.startCheck
  split
  · exact .refused nofun nofun
  · exact .taken trivial

theorem abort_answers (x : Schedule) : Answers (fun _ => True) x.abort := by
  unfold Schedule.abort
  split
  · split <;> exact .refused nofun nofun
  · exact .taken trivial
  · exact .taken trivial

theorem startCopy_answers (x : Schedule) : Answers (fun _ => True) x.startCopy := by
  unfold Schedule.startCopy
  split
  · exact .refused nofun nofun
  · exact .taken trivial

theorem lineCommand_hostCommand {f : Line → State → Except CmdStatus State} (h : ∀ l, HostCommand (f l)) :
    HostCommand (lineCommand f) := by
  intro s
  unfold lineCommand
  split
  · exact h _ s
  · exact .refused nofun nofun

theorem enableLine_hostCommand (l : Line) : HostCommand (enableLine l) := by
  intro s
  unfold enableLine
  split
  · exact .taken (setEngine_lineFrame l s _).quietFrame
  · exact .refused nofun nofun

theorem disableLine_hostCommand (l : Line) : HostCommand (disableLine l) := by
  intro s
  unfold disableLine
  dsimp only
  split
  · exact .refused nofun nofun
  · split
    · exact .taken (.refl s)
    · split <;> exact .taken ((tearDown_lineFrame l s).trans (setEngine_lineFrame l _ _)).quietFrame

theorem stationCommand_hostCommand {f : Station → Except CmdStatus Station} (h : ∀ r, Answers (fun _ => True) (f r)) :
    HostCommand (stationCommand f) := by
  intro s
  unfold stationCommand
  split
  · next l i _ _ =>
    have answer := h (s.station l i)
    generalize f (s.station l i) = x at answer ⊢
    cases answer with
    | taken => exact .taken (setStation_lineFrame l s i _).quietFrame
    | refused ne_none ne_accepted => exact .refused ne_none ne_accepted
  · exact .refused nofun nofun

theorem unparkStation_answers (r : Station) : Answers (fun _ => True) (unparkStation r) := by
  unfold unparkStation
  split
  · exact .taken trivial
  · exact .refused nofun nofun

theorem imageCommand_hostCommand (f : Fin 64 → ImageStore → ImageStore) : HostCommand (imageCommand f) := by
  intro s
  unfold imageCommand
  split
  · exact .taken (.of_fields rfl)
  · exact .refused nofun nofun

theorem mailboxCommand_hostCommand {f : Fin 48 → Mailbox → State → Except CmdStatus State} (h : ∀ i m, HostCommand (f i m)) :
    HostCommand (mailboxCommand f) := by
  intro s
  unfold mailboxCommand
  split
  · exact h _ _ s
  · exact .refused nofun nofun

theorem claimMailbox_hostCommand (i : Fin 48) (m : Mailbox) : HostCommand (claimMailbox i m) := by
  intro s
  unfold claimMailbox
  split
  · exact .taken (.of_fields rfl)
  all_goals exact .refused nofun nofun

theorem releaseMailbox_hostCommand (i : Fin 48) (m : Mailbox) : HostCommand (releaseMailbox i m) := by
  intro s
  unfold releaseMailbox
  split
  · exact .taken (.of_fields rfl)
  · exact .taken (.of_fields rfl)
  all_goals exact .refused nofun nofun

theorem flushMailbox_hostCommand (i : Fin 48) (m : Mailbox) : HostCommand (flushMailbox i m) := fun _ => .taken (.of_fields rfl)

theorem postRequest_hostCommand : HostCommand postRequest := by
  intro s
  unfold postRequest
  dsimp only
  split
  · exact .refused nofun nofun
  · split
    · exact .refused nofun nofun
    · split
      · exact .refused nofun nofun
      · exact .taken (setAcyclic_lineFrame _ s _).quietFrame

theorem cancelRequest_hostCommand : HostCommand cancelRequest := by
  intro s
  unfold cancelRequest
  dsimp only
  split
  · exact .refused nofun nofun
  · split
    · exact .taken (setAcyclic_lineFrame _ s _).quietFrame
    · split <;> exact .refused nofun nofun

theorem popEvent_hostCommand : HostCommand popEvent := by
  intro s
  unfold popEvent
  split
  · exact .refused nofun nofun
  · exact .taken (.of_fields rfl)

/-! ## The rows that give a command (R162, log 16) -/

/-- A row gives the command of a code: a command of the host, or the soft reset (R166). -/
inductive CommandRow (c : Instr) (code : Byte) : Prop where
  | command {command : State → Except CmdStatus State} (runs : ∀ s, exec c s = .next (commandAccess code command s))
      (host : HostCommand command)
  | reset (spells : code = 0x7F) (runs : ∀ s, exec c s = .next (commandAccess code softReset s))

theorem CommandRow.of_exec_eq {c c' : Instr} {code : Byte} (h : CommandRow c' code) (same : ∀ s, exec c s = exec c' s) :
    CommandRow c code := by
  cases h with
  | command runs host => exact .command (fun s => (same s).trans (runs s)) host
  | reset spells runs => exact .reset spells fun s => (same s).trans (runs s)

/-- The commands of section 11.10, one by one. -/
theorem commandRow_ofCode {code : Byte} {c : Instr} (h : commandOfCode code = some c) : CommandRow c code := by
  have rows : commandCodes.Forall fun p => CommandRow p.2 p.1 :=
    ⟨.command (fun _ => rfl) startCycles_hostCommand,
      .command (fun _ => rfl) stopCycles_hostCommand,
      .command (fun _ => rfl) singleCycle_hostCommand,
      .command (fun _ => rfl) (scheduleCommand_hostCommand startCheck_answers),
      .command (fun _ => rfl) (scheduleCommand_hostCommand abort_answers),
      .command (fun _ => rfl) (scheduleCommand_hostCommand startCopy_answers),
      .command (fun _ => rfl) (lineCommand_hostCommand enableLine_hostCommand),
      .command (fun _ => rfl) (lineCommand_hostCommand disableLine_hostCommand),
      .command (fun _ => rfl) (stationCommand_hostCommand (f := parkStation) fun _ => .taken trivial),
      .command (fun _ => rfl) (stationCommand_hostCommand unparkStation_answers),
      .command (fun _ => rfl) (stationCommand_hostCommand (f := clearStation) fun _ => .taken trivial),
      .command (fun _ => rfl) (imageCommand_hostCommand _),
      .command (fun _ => rfl) (imageCommand_hostCommand _),
      .command (fun _ => rfl) fun _ => .taken (.of_fields rfl),
      .command (fun _ => rfl) (mailboxCommand_hostCommand claimMailbox_hostCommand),
      .command (fun _ => rfl) (mailboxCommand_hostCommand releaseMailbox_hostCommand),
      .command (fun _ => rfl) (mailboxCommand_hostCommand flushMailbox_hostCommand),
      .command (fun _ => rfl) postRequest_hostCommand,
      .command (fun _ => rfl) cancelRequest_hostCommand,
      .command (fun _ => rfl) popEvent_hostCommand,
      .reset rfl fun _ => rfl⟩
  exact List.forall_iff_forall_mem.mp rows _ ((commandOfCode_iff code c).mp h)

/-- A BAD_COMMAND gives the command of its code, or is refused (R162). -/
theorem commandRow_badCommand (code : Byte) : CommandRow (.badCommand code) code := by
  cases h : commandOfCode code with
  | some c => exact (commandRow_ofCode h).of_exec_eq (exec_badCommand · h)
  | none =>
    have runs (s : State) : exec (.badCommand code) s = .next (commandAccess code (fun _ => .error .badCommand) s) := by
      rw [exec, execBadCommand, h]; rfl
    exact .command runs fun _ => .refused nofun nofun

/-- The ways of giving a command. -/
theorem commandRow_ofGives {c : Instr} {code : Byte} (h : GivesCommand c code) : CommandRow c code := by
  rcases h with h | rfl | rfl
  · exact commandRow_ofCode h
  · exact commandRow_badCommand code
  · have own : ownRowOfWrite 0x05 code = some ((commandOfCode code).getD (.badCommand code)) := rfl
    refine CommandRow.of_exec_eq ?_ (exec_registerWrite · own)
    cases h : commandOfCode code with
    | some c => exact commandRow_ofCode h
    | none => exact commandRow_badCommand code

/-- The only code whose command resets is that of SOFT_RESET. -/
theorem isReset_ofGives {c : Instr} (h : GivesCommand c 0x7F) : isReset c := by
  rcases h with h | rfl | rfl
  · cases h; simp [isReset]
  · simp [isReset]
  · simp [isReset]

/-- What a command that is taken leaves behind (R162, R166). -/
structure Accepted (code : Byte) (s t : State) : Prop where
  cmd : t.host.cmd = code
  status : t.host.status = .accepted
  around : Surroundings s t
  refused : t.host.cmdRefused = true → s.host.cmdRefused = true
  arguments : code = 0x7F ∨ t.host.arg0 = s.host.arg0 ∧ t.host.arg1 = s.host.arg1

/-- A part that is not held in reset takes the command or refuses it. -/
theorem CommandRow.answered {c : Instr} {code : Byte} {s t : State} (h : CommandRow c code) (running : s.inReset = false)
    (ht : exec c s = .next t) :
    Accepted code s t ∨ ∃ answer, answer ≠ .none ∧ answer ≠ .accepted ∧ t = s.refused code answer := by
  cases h with
  | @command command runs host =>
    obtain rfl : commandAccess code command s = t := Host.Outcome.next.inj ((runs s).symm.trans ht)
    generalize hu : s.withHost { s.host with data := none } = u
    have quiet : QuietFrame s u := hu ▸ .of_fields rfl
    generalize hx : command u = x
    cases hx ▸ host u with
    | @taken t' effect =>
      have kept := quiet.trans effect
      rw [commandAccess_ok running (hu ▸ hx)]
      exact .inl ⟨rfl, rfl, ⟨kept.pending, kept.inputs, kept.inReset, kept.choices⟩, kept.refused, .inr ⟨kept.arg0, kept.arg1⟩⟩
    | @refused answer ne_none ne_accepted =>
      rw [commandAccess_error running (hu ▸ hx)]
      exact .inr ⟨answer, ne_none, ne_accepted, rfl⟩
  | reset spells runs =>
    obtain rfl : commandAccess code softReset s = t := Host.Outcome.next.inj ((runs s).symm.trans ht)
    rw [commandAccess_ok (command := softReset) running rfl]
    exact .inl ⟨rfl, rfl, ⟨rfl, rfl, running.symm, le_rfl⟩, nofun, .inl spells⟩

/-! ## Every row -/

/-- Every row is a pin row, an event of the part, an access of the host, a plain register's write among them, or a command given. -/
inductive RowShape (c : Instr) : Prop where
  | pin (row : isPinRow c)
  | event {f : State → State} (runs : ∀ s, exec c s = .next (s.event f)) (quiet : ∀ u, QuietFrame u (f u))
  | access {f : State → State} (runs : ∀ s, exec c s = .next (s.access f)) (quiet : ∀ u, QuietFrame u (f u))
  | plain {offset : BitVec 6} {v : Byte} (row : c = .registerWrite offset v)
      (runs : ∀ s, exec c s = .next (s.access (plainWrite offset v)))
  | command {code : Byte} (row : CommandRow c code) (resets : code = 0x7F → isReset c)

/-- A row of the table that gives a command. -/
theorem RowShape.of_code {c : Instr} (code : Byte) (h : commandOfCode code = some c) : RowShape c :=
  .command (commandRow_ofCode h) fun reset => isReset_ofGives (.inl (reset ▸ h))

/-- Every row but REGISTER_WRITE, which may spell another. -/
theorem rowShape_direct (c : Instr) (h : ∀ offset v, c ≠ .registerWrite offset v) : RowShape c := by
  cases hl : lineOf c with
  | some l =>
    obtain ⟨f, runs, frame⟩ := lineRow hl
    exact .event runs fun u => (frame u).1.quietFrame
  | none =>
    cases c with
    | cycleStart => exact .of_code 0x01 rfl
    | cycleStop => exact .of_code 0x02 rfl
    | cycleSingle => exact .of_code 0x03 rfl
    | changeover => exact .of_code 0x10 rfl
    | abortChangeover => exact .of_code 0x11 rfl
    | copyActive => exact .of_code 0x12 rfl
    | lineEnable => exact .of_code 0x20 rfl
    | lineDisable => exact .of_code 0x21 rfl
    | park => exact .of_code 0x28 rfl
    | unpark => exact .of_code 0x29 rfl
    | clearCounters => exact .of_code 0x2A rfl
    | publishImage => exact .of_code 0x30 rfl
    | markImage => exact .of_code 0x31 rfl
    | unmarkAll => exact .of_code 0x32 rfl
    | claim => exact .of_code 0x40 rfl
    | release => exact .of_code 0x41 rfl
    | flush => exact .of_code 0x42 rfl
    | post => exact .of_code 0x50 rfl
    | cancel => exact .of_code 0x51 rfl
    | pop => exact .of_code 0x60 rfl
    | softReset => exact .of_code 0x7F rfl
    | badCommand code => exact .command (commandRow_badCommand code) fun reset => isReset_ofGives (.inr (.inl (reset ▸ rfl)))
    | cytModeWrite | cytPrescaleWrite | cytWindowWrite | cytPeriodHighWrite =>
      exact .access (fun _ => rfl) fun _ => settingWrite_quietFrame ..
    | divisorHighWrite => exact .access (fun _ => rfl) fun _ => by dsimp only; split <;> exact .of_fields rfl
    | lineSettingWrite | irqStatusWrite => exact .access (fun _ => rfl) fun _ => by split <;> exact .of_fields rfl
    | cytPeriodLowWrite | divisorLowWrite | cytValueLowRead | cycleCountLowRead | schChangeoversLowRead | overrunCounterWrite
    | strayCounterWrite | poolMissesWrite | irqEnableWrite => exact .access (fun _ => rfl) fun _ => .of_fields rfl
    | hostStatusWrite v => exact .access (fun _ => rfl) (clearSticky_quietFrame v)
    | winDataRead => exact .access (fun _ => rfl) fun u => (readAtPointer_quietFrame u).advancePointer
    | winDataWrite v => exact .access (fun _ => rfl) fun u => (windowWrite_quietFrame _ v u).advancePointer
    | winPeekRead => exact .access (fun _ => rfl) readAtPointer_quietFrame
    | winPeekWrite v => exact .access (fun _ => rfl) fun u => windowWrite_quietFrame _ v u
    | registerWrite offset v => exact absurd rfl (h offset v)
    | pinReset => exact .pin (.inl rfl)
    | powerUp => exact .pin (.inr (.inl rfl))
    | resetRelease => exact .pin (.inr (.inr rfl))
    | tick =>
      refine .event (fun _ => rfl) fun u => ?_
      split
      · exact (settle_quietFrame u).trans (completeTick_quietFrame _)
      · exact .refl u
    | periodEnd | syncWindowExpiry =>
      refine .event (fun _ => rfl) fun u => ?_
      split
      · exact (settle_quietFrame u).trans (ownBoundary_quietFrame _)
      · exact .refl u
    | syncFallingEdge => exact .event (fun _ => rfl) syncEdge_quietFrame
    | syncSeenHigh => exact .event (fun _ => rfl) syncHigh_quietFrame
    | changeoverCheckEnd => exact .event (fun _ => rfl) endCheck_quietFrame
    | copyComplete => exact .event (fun _ => rfl) endCopy_quietFrame
    | _ => cases hl

/-- No write is one of the pins' rows. -/
theorem not_isPinRow_ofOffset {offset : BitVec 6} {v : Byte} {c : Instr} (h : ownRowOfWrite offset v = some c) : ¬ isPinRow c := by
  have code : ¬ isPinRow ((commandOfCode v).getD (.badCommand v)) := by
    cases hv : commandOfCode v with
    | none => simp [isPinRow]
    | some c => unfold commandOfCode at hv; split at hv <;> cases hv <;> simp [isPinRow]
  have rows : (rowsOfWrites v).Forall fun p => ¬ isPinRow p.2 := by simpa [rowsOfWrites, isPinRow] using code
  exact List.forall_iff_forall_mem.mp rows _ ((ownRowOfWrite_iff offset v c).mp h)

/-- Every row of the table, through the row it spells (log 16). -/
theorem rowShape (c : Instr) : RowShape c := by
  by_cases hc : ∃ offset v, c = .registerWrite offset v
  · obtain ⟨offset, v, rfl⟩ := hc
    cases own : ownRowOfWrite offset v with
    | none => exact .plain rfl fun s => by rw [exec, execRegisterWrite, own]
    | some c' =>
      have direct : ∀ o w, c' ≠ .registerWrite o w := fun o w spelled => ownRowOfWrite_registerWrite offset v o w (spelled ▸ own)
      have same (s : State) : exec (.registerWrite offset v) s = exec c' s := exec_registerWrite s own
      cases rowShape_direct c' direct with
      | pin row => exact absurd row (not_isPinRow_ofOffset own)
      | event runs quiet => exact .event (fun s => (same s).trans (runs s)) quiet
      | access runs quiet => exact .access (fun s => (same s).trans (runs s)) quiet
      | plain row => exact absurd row (direct _ _)
      | command row resets =>
        refine .command (row.of_exec_eq same) fun reset => ?_
        obtain ⟨rfl, rfl⟩ := (wellFormed_ofOffset own).2 (resets reset)
        simp [isReset]
  · exact rowShape_direct c fun offset v spelled => hc ⟨offset, v, spelled⟩

end Sys2Proof.Machine
end

section
/-! Commands, resets and runs: what is held in reset, what a refusal leaves, and that nothing stops the part (R161 to R167; logs 2, 3, 5,
10, 16, 21 and 22). -/

namespace Sys2Proof.Machine

/-! ## Runs (log 22) -/

/-- Every command completes. -/
theorem exec_completes (c : Instr) (s : State) : ∃ t, exec c s = .next t := (rowMoves c s).imp fun _ => And.left

/-- So does every step, with a command waiting or without (log 2). -/
theorem step_completes (s : State) : Safe s := by
  unfold Safe step
  cases s.pending with
  | nil => exact ⟨clockPeriod s, rfl⟩
  | cons c rest => exact exec_completes c { s with pending := rest }

/-- Settles O2: nothing stops the part, so no run of it stops. -/
theorem noCommandEverStops : Obligations.NoCommandEverStops := by
  unfold Obligations.NoCommandEverStops
  exact ⟨exec_completes, fun _ t _ => step_completes t⟩

/-! ## A part held in reset (R165) -/

/-- Settles O4: every row but the pins' is an event or an access, and neither is taken while the part is held. -/
theorem nothingActsWhileHeldInReset : Obligations.NothingActsWhileHeldInReset := by
  unfold Obligations.NothingActsWhileHeldInReset
  intro s held c notPin
  cases rowShape c with
  | pin row => exact absurd row notPin
  | event runs => rw [runs, State.event_held held]
  | access runs => rw [runs, State.access_held held]
  | plain _ runs => rw [runs, State.access_held held]
  | command row =>
    cases row with
    | command runs => rw [runs, commandAccess_held held]
    | reset _ runs => rw [runs, commandAccess_held held]

/-! ## Resets (R165 to R167) -/

theorem exec_pinReset (s : State) : exec .pinReset s = .next { State.reset with
    inputs := s.inputs, choices := s.choices, pending := s.pending, inReset := true } := rfl

theorem exec_powerUp (s : State) : exec .powerUp s = .next { State.reset with
    inputs := s.inputs, choices := s.choices, pending := s.pending, inReset := true } := rfl

theorem exec_resetRelease (s : State) : exec .resetRelease s = .next { s with inReset := false } := rfl

/-- An engine in its reset state lets its line go: TX at 1, DE released (R81). -/
theorem Engine.reset_pins : Engine.reset.txPin = true ∧ Engine.reset.dePin = false := ⟨rfl, rfl⟩

/-- Settles O6. The outputs are those of blocks in their reset state. -/
theorem resetRowsTakeTheResetState : Obligations.ResetRowsTakeTheResetState := by
  unfold Obligations.ResetRowsTakeTheResetState
  intro s
  refine ⟨exec_pinReset s, exec_powerUp s, exec_resetRelease s, exec_softReset, ?_⟩
  have outputs {t : State} (lines : t.lines = State.reset.lines) (sync : t.syncPin = none) (irq : t.irqDriven = false) :
      (∀ l, (t.engine l).txPin = true ∧ (t.engine l).dePin = false) ∧ t.syncPin = none ∧ t.irqDriven = false := by
    refine ⟨fun l => ?_, sync, irq⟩
    have engine : t.engine l = Engine.reset := (congrArg (Two.get · l) lines).trans (State.reset_engine l)
    rw [engine]
    exact Engine.reset_pins
  rintro c t (rfl | rfl | ⟨rfl, running⟩) ht
  · cases ht; exact outputs rfl rfl rfl
  · cases ht; exact outputs rfl rfl rfl
  · rw [exec_softReset running] at ht
    cases ht; exact outputs rfl rfl rfl

/-! ## Reset values of the registers (section 11.1) -/

/-- The reset column after a pin reset: 64 registers of one state. -/
theorem directRead_reset (offset : BitVec 6) : directRead State.reset offset = resetColumn offset := by
  revert offset; decide

/-- What the window answers depends on the Host Port by its latch alone (R159, R160). -/
theorem windowRead_byte_of_latch (w : WinTarget) (s : State) {h : HostPort} (latch : h.latch = s.host.latch) :
    (windowRead w (s.withHost h)).1 = (windowRead w s).1 := by
  have record (id : RecordId) (bytes : List Byte) (k : Nat) :
      (readRecord id bytes k (s.withHost h)).1 = (readRecord id bytes k s).1 := by
    by_cases hk : k = 0
    · subst hk; rfl
    · rw [readRecord_byte hk, readRecord_byte hk, State.withHost_host, latch]
  have claimed (m : Mailbox) (byte : Buffer → Byte) : (readClaimed m byte (s.withHost h)).1 = (readClaimed m byte s).1 := by
    unfold readClaimed
    split <;> rfl
  have copied : (copyProgress (s.withHost h)).schedule = (copyProgress s).schedule := by
    unfold copyProgress
    rw [State.withHost_schedule]
    split <;> rfl
  cases w with
  | pendingEntry l i k => exact congrArg (fun x : Schedule => entryByte ((x.pendingBank.get l).entries[i]) k) copied
  | pendingCount l => exact congrArg (fun x : Schedule => (x.pendingBank.get l).count) copied
  | result | station | mailboxPart | eventHeader => exact record ..
  | mailboxHeader | mailboxPayload => exact claimed ..
  | _ => rfl

/-- The reset cause, the code and the answer show in HOST_STATUS, CMD and CMD_STATUS alone (section 11.1). -/
theorem directRead_marks {offset : BitVec 6} (s : State) (cause : ResetCause) (cmd : Byte) (status : CmdStatus)
    (h2 : offset ≠ 0x02) (h5 : offset ≠ 0x05) (h8 : offset ≠ 0x08) :
    directRead (s.withHost { s.host with cause := cause, cmd := cmd, status := status }) offset = directRead s offset := by
  unfold directRead
  split
  case h_3 at2 => exact absurd (BitVec.toNat_eq_nat.mp at2).2 h2
  case h_6 at5 => exact absurd (BitVec.toNat_eq_nat.mp at5).2 h5
  case h_9 at8 => exact absurd (BitVec.toNat_eq_nat.mp at8).2 h8
  case h_12 | h_13 => exact windowRead_byte_of_latch _ s rfl
  all_goals rfl

/-- Settles O5: SOFT_RESET takes the state of a pin reset but for its own marks. -/
theorem registersReadTheirResetValues : Obligations.RegistersReadTheirResetValues := by
  unfold Obligations.RegistersReadTheirResetValues
  refine ⟨directRead_reset, fun t ht => ?_⟩
  rw [exec_softReset rfl] at ht
  cases ht
  exact ⟨rfl, rfl, rfl, fun offset h2 h5 h8 =>
    (directRead_marks State.reset .soft 0x7F .accepted h2 h5 h8).trans (directRead_reset offset)⟩

/-! ## The surroundings of a command (logs 3, 5, 10, 21) -/

/-- No row but the pins' changes what is not the part's own. -/
theorem exec_surroundings {c : Instr} {s t : State} (notPin : ¬ isPinRow c) (ht : exec c s = .next t) : Surroundings s t := by
  have inject {x : State} (runs : exec c s = .next x) : x = t := Host.Outcome.next.inj (runs.symm.trans ht)
  cases rowShape c with
  | pin row => exact absurd row notPin
  | event runs quiet => exact inject (runs s) ▸ (event_quietFrame quiet).toSurroundings
  | access runs quiet => exact inject (runs s) ▸ (access_quietFrame fun u => quiet u).toSurroundings
  | @plain offset v _ runs => exact inject (runs s) ▸ access_surroundings (plainWrite_surroundings offset v)
  | command row =>
    cases held : s.inReset with
    | true =>
      obtain rfl := inject (nothingActsWhileHeldInReset s held c notPin)
      exact (QuietFrame.refl s).toSurroundings
    | false =>
      rcases row.answered held ht with accepted | ⟨_, -, -, rfl⟩
      · exact accepted.around
      · exact ⟨rfl, rfl, rfl, le_rfl⟩

/-- Settles O3: a reset at the pins keeps the surroundings but for the hold. -/
theorem commandsLeaveTheQueueAlone : Obligations.CommandsLeaveTheQueueAlone := by
  unfold Obligations.CommandsLeaveTheQueueAlone
  intro c s t ht
  by_cases pin : isPinRow c
  · have around : t.pending = s.pending ∧ t.inputs = s.inputs ∧ s.choices ≤ t.choices := by
      rcases pin with rfl | rfl | rfl <;> cases ht <;> exact ⟨rfl, rfl, le_rfl⟩
    obtain ⟨pending, inputs, choices⟩ := around
    exact ⟨pending, inputs, choices, fun _ => pin⟩
  · obtain ⟨pending, inputs, inReset, choices⟩ := exec_surroundings pin ht
    exact ⟨pending, inputs, choices, fun changed => absurd inReset changed⟩

/-! ## Answers (R161 to R163) -/

/-- A row that is no refusal does not set CMD_REFUSED, and writes the argument bytes only as a reset or as their own write. -/
structure PortFrame (c : Instr) (s t : State) : Prop where
  refused : t.host.cmdRefused = true → s.host.cmdRefused = true
  arg0 : t.host.arg0 ≠ s.host.arg0 → isReset c ∨ ∃ v, c = .registerWrite 0x06 v
  arg1 : t.host.arg1 ≠ s.host.arg1 → isReset c ∨ ∃ v, c = .registerWrite 0x07 v

theorem QuietFrame.portFrame {s t : State} (h : QuietFrame s t) (c : Instr) : PortFrame c s t :=
  ⟨h.refused, fun changed => absurd h.arg0 changed, fun changed => absurd h.arg1 changed⟩

theorem Accepted.portFrame {c : Instr} {code : Byte} {s t : State} (h : Accepted code s t) (resets : code = 0x7F → isReset c) :
    PortFrame c s t := by
  refine ⟨h.refused, fun changed => ?_, fun changed => ?_⟩
  · exact h.arguments.elim (.inl ∘ resets) fun kept => absurd kept.1 changed
  · exact h.arguments.elim (.inl ∘ resets) fun kept => absurd kept.2 changed

/-- The plain registers at 0x06 and 0x07 are the arguments (R155). -/
theorem plainWrite_portFrame (offset : BitVec 6) (v : Byte) (s : State) :
    PortFrame (.registerWrite offset v) s (s.access (plainWrite offset v)) := by
  unfold State.access
  split
  · exact (QuietFrame.refl s).portFrame _
  · refine ⟨fun set => ?_, fun changed => ?_, fun changed => ?_⟩
    · rwa [plainWrite_cmdRefused] at set
    · by_cases at6 : offset = 0x06
      · exact .inr ⟨v, by rw [at6]⟩
      · exact absurd (plainWrite_arg0 v _ at6) changed
    · by_cases at7 : offset = 0x07
      · exact .inr ⟨v, by rw [at7]⟩
      · exact absurd (plainWrite_arg1 v _ at7) changed

/-- The resets at the pins clear CMD_REFUSED and the arguments; the release of a hold changes nothing of them. -/
theorem isPinRow_portFrame {c : Instr} {s t : State} (pin : isPinRow c) (ht : exec c s = .next t) : PortFrame c s t := by
  rcases pin with rfl | rfl | rfl <;> cases ht
  · exact ⟨nofun, fun _ => .inl (.inl rfl), fun _ => .inl (.inl rfl)⟩
  · exact ⟨nofun, fun _ => .inl (.inr (.inl rfl)), fun _ => .inl (.inr (.inl rfl))⟩
  · exact ⟨id, (absurd rfl ·), (absurd rfl ·)⟩

/-- Every row answers a refusal, or leaves CMD_REFUSED and the arguments as a row that refuses nothing. -/
theorem exec_refuses_or_portFrame {c : Instr} {s t : State} (ht : exec c s = .next t) :
    PortFrame c s t ∨ ∃ code answer, answer ≠ .none ∧ answer ≠ .accepted ∧ t = s.refused code answer := by
  have inject {x : State} (runs : exec c s = .next x) : x = t := Host.Outcome.next.inj (runs.symm.trans ht)
  cases rowShape c with
  | pin row => exact .inl (isPinRow_portFrame row ht)
  | event runs quiet => exact .inl (inject (runs s) ▸ (event_quietFrame quiet).portFrame c)
  | access runs quiet => exact .inl (inject (runs s) ▸ (access_quietFrame quiet).portFrame c)
  | @plain offset v row runs => exact .inl (inject (runs s) ▸ row ▸ plainWrite_portFrame offset v s)
  | @command code row resets =>
    cases held : s.inReset with
    | true =>
      by_cases pin : isPinRow c
      · exact .inl (isPinRow_portFrame pin ht)
      · obtain rfl := inject (nothingActsWhileHeldInReset s held c pin)
        exact .inl ((QuietFrame.refl s).portFrame c)
    | false =>
      rcases row.answered held ht with accepted | refusal
      · exact .inl (accepted.portFrame resets)
      · exact .inr ⟨code, refusal⟩

/-- Settles O56, by the answer that a command is given. -/
theorem refusalsLeaveThePartAsItWas : Obligations.RefusalsLeaveThePartAsItWas := by
  unfold Obligations.RefusalsLeaveThePartAsItWas
  intro c s t ht
  refine ⟨fun code running gives => ?_, ?_⟩
  · rcases (commandRow_ofGives gives).answered running ht with accepted | ⟨answer, ne_none, ne_accepted, rfl⟩
    · have status := accepted.status
      exact ⟨accepted.cmd, by rw [status]; decide, fun refused => absurd status refused, fun _ => accepted.refused⟩
    · exact ⟨rfl, ne_none, fun _ => ⟨rfl, rfl⟩, fun accepted => absurd accepted ne_accepted⟩
  · rcases exec_refuses_or_portFrame ht with port | ⟨code, answer, ne_none, ne_accepted, rfl⟩
    · exact ⟨fun clear set => absurd (port.refused set) (by simp [clear]), port.arg0, port.arg1⟩
    · exact ⟨fun _ _ => ⟨code, answer, ne_none, ne_accepted, rfl⟩, (absurd rfl ·), (absurd rfl ·)⟩

end Sys2Proof.Machine
end

section
/-! The step of the part by its queue, and the clock of a part held in reset (section 10.1, R165, log 2). -/

namespace Sys2Proof.Machine

section Queue

variable {s : State}

/-- The front command runs on the state with the queue's rest. -/
theorem step_of_pending_cons {c : Instr} {rest : List Instr} (queue : s.pending = c :: rest) :
    step s = exec c { s with pending := rest } := by
  rw [step, queue]

/-- An empty queue lets one clock period pass (log 2). -/
theorem step_of_pending_nil (queue : s.pending = []) : step s = .next (clockPeriod s) := by
  rw [step, queue]

/-- The clock of a part held in reset counts and samples nothing (R165). -/
theorem clockPeriod_held (held : s.inReset = true) : clockPeriod s = s :=
  if_pos held

end Queue

/-- Settles O1, by the two forms of the queue; putting a command in front and taking it off again gives the state back. -/
theorem stepRunsTheFrontCommand : Obligations.StepRunsTheFrontCommand := by
  unfold Obligations.StepRunsTheFrontCommand
  refine ⟨fun c s => ?front, fun s queue => step_of_pending_nil queue, fun s held => clockPeriod_held held⟩
  case front => exact step_of_pending_cons (s := { s with pending := c :: s.pending }) rfl

end Sys2Proof.Machine
end
